-- ==== Sys2Proof/Word.lean ====
section
/-! DEFINITION. The word types of the block: bus bytes and 8-bit registers, 16-bit pairs, 24-bit result
registers, 6-bit register addresses (spec/00_scope.md R8, R9; spec/10_state.md R21, R22). -/

namespace Sys2Proof

/-- A bus byte, and the value of an 8-bit register (R8). -/
abbrev Byte := BitVec 8

/-- The value of an `_H`/`_L` pair (R27). -/
abbrev Half := BitVec 16

/-- The value of a 24-bit result register (R24). -/
abbrev Word24 := BitVec 24

/-- A register address: bits 5:0 of a command byte (R21, R121). -/
abbrev Addr := BitVec 6

end Sys2Proof
end

