-- ==== Sys2Proof/Syntax.lean ====
section
/-! DEFINITION. The instructions of the block, one constructor per row of spec/opcode_table.json: the seven bus
transactions of spec/40_bus_transactions.md, the fifteen host operations of spec/30_encoding.md R148 and the
reserved code; the register names they take; and the form in which the host presents a request. -/

namespace Sys2Proof

/-- The ten 8-bit registers, in address order 0x00 to 0x09 (R22, R23). -/
inductive Reg8 where
  | config1 | config2 | intStatus | intMask
  | coarseOvfH | coarseOvfL | clockOvfH | clockOvfL | stopMaskH | stopMaskL
deriving DecidableEq, Repr, Inhabited

/-- The three 16-bit quantities made of an `_H`/`_L` pair, at 0x04, 0x06, 0x08 (R27). -/
inductive Pair where
  | coarseOvf | clockOvf | stopMask
deriving DecidableEq, Repr, Inhabited

/-- The thirteen 24-bit result registers, in address order 0x10 to 0x1C (R22, R24). -/
inductive Reg24 where
  | time1 | clockCount1 | time2 | clockCount2 | time3 | clockCount3 | time4 | clockCount4
  | time5 | clockCount5 | time6 | calibration1 | calibration2
deriving DecidableEq, Repr, Inhabited

/-- A register name: an operand of REG_READ and REG_WRITE (R147, R170, R171). -/
inductive RegName where
  | byte (r : Reg8)
  | pair (p : Pair)
  | result (r : Reg24)
deriving DecidableEq, Repr, Inhabited

/-- The overflow of a configuration request: a count of clock periods, or a time in seconds (R135, R202). -/
inductive OverflowRequest where
  | count (n : Int)
  | timeout (t : Rat)
deriving DecidableEq, Repr

/-- What the host asks of CONFIGURE, before normalisation (R202). -/
structure ConfigRequest where
  measMode     : Int
  forceCal     : Bool
  trigFalling  : Bool
  startFalling : Bool
  stopFalling  : Bool
  calPeriods   : Int
  avgCycles    : Int
  numStop      : Int
  stopMask     : Int
  overflow     : OverflowRequest
deriving DecidableEq, Repr

/-- The instructions: one constructor per row of spec/opcode_table.json, in the table's order. -/
inductive Instr where
  | rd8 (r : Reg8)
  | wr8 (r : Reg8) (v : Byte)
  | rd16 (p : Pair)
  | wr16 (p : Pair) (v : Half)
  | rd24 (r : Reg24)
  | rdall8
  | rdall24
  | openBus
  | setClockSpeed (requested : Rat) (force : Bool)
  | powerOff
  | powerOn
  | configure (request : ConfigRequest)
  | configureRetain
  | measure
  | clearStatus (force : Bool)
  | readRegs8
  | readRegs24
  | computeTofs
  | cleanup
  | regRead (name : RegName)
  | hardRecover
  | regWrite (name : RegName) (value : Nat)
  | reservedHopF
deriving DecidableEq, Repr

/-- An operand of a host operation as the host passes it. The spec gives host operands no bits (R148), so they
are typed values; `addr` is a register given by address, as R147 allows (log entry 8). -/
inductive Operand where
  | int (z : Int)
  | rat (q : Rat)
  | flag (b : Bool)
  | name (r : RegName)
  | addr (a : Addr)
deriving DecidableEq, Repr

/-- One request of the host: a bus frame, whose length is the number of bytes under one chip select (R127), or a
4-bit host-operation code with its operands (R148). The two code spaces are separate (R140, R148). -/
inductive Request where
  | frame (bytes : List Byte)
  | hop (code : BitVec 4) (operands : List Operand)
deriving DecidableEq, Repr

end Sys2Proof
end

