-- ==== Sys2Proof/Machine/Flags.lean ====
section
/-! DEFINITION. LAYOUT: the bit positions of every named field of CONFIG1, CONFIG2, INT_STATUS and INT_MASK, a
parameter of the block with the spec's default (spec/00_scope.md R7; spec/10_state.md R28 to R36;
spec/30_encoding.md R144; log entry 5). Every other file names fields through these definitions. The block has no
arithmetic flags (R59); its status bits are INT_STATUS's. -/

namespace Sys2Proof.Machine

/-- LAYOUT: the position of the lowest bit of every named field. A field has the width its rule gives it: MEAS_MODE and
CALIBRATION2_PERIODS 2 bits, AVG_CYCLES and NUM_STOP 3, every other 1 (R7, R28, R31, R33). -/
structure Layout where
  /-- CONFIG1.FORCE_CAL (R29). -/
  forceCal      : Fin 8
  /-- CONFIG1.PARITY_EN (R29). -/
  parityEn      : Fin 8
  /-- CONFIG1.TRIGG_EDGE (R29). -/
  trigEdge      : Fin 8
  /-- CONFIG1.STOP_EDGE (R29). -/
  stopEdge      : Fin 8
  /-- CONFIG1.START_EDGE (R29). -/
  startEdge     : Fin 8
  /-- CONFIG1.MEAS_MODE (R29, R31). -/
  measMode      : Fin 8
  /-- CONFIG1.START_MEAS (R29, R30). -/
  startMeas     : Fin 8
  /-- CONFIG2.CALIBRATION2_PERIODS (R32). -/
  tier          : Fin 8
  /-- CONFIG2.AVG_CYCLES (R32). -/
  avg           : Fin 8
  /-- CONFIG2.NUM_STOP (R32). -/
  numStop       : Fin 8
  /-- INT_STATUS.NEW_MEAS_INT (R34). -/
  newMeas       : Fin 8
  /-- INT_STATUS.COARSE_CNTR_OVF_INT (R34). -/
  coarseOvf     : Fin 8
  /-- INT_STATUS.CLOCK_CNTR_OVF_INT (R34). -/
  clockOvf      : Fin 8
  /-- INT_STATUS.MEAS_STARTED_FLAG (R34). -/
  started       : Fin 8
  /-- INT_STATUS.MEAS_COMPLETE_FLAG (R34). -/
  complete      : Fin 8
  /-- INT_MASK.NEW_MEAS_MASK (R36). -/
  newMeasMask   : Fin 8
  /-- INT_MASK.COARSE_CNTR_OVF_MASK (R36). -/
  coarseOvfMask : Fin 8
  /-- INT_MASK.CLOCK_CNTR_OVF_MASK (R36). -/
  clockOvfMask  : Fin 8
deriving DecidableEq, Repr, Inhabited

/-- The spec's default LAYOUT (R29, R32, R34, R36). -/
def defaultLayout : Layout where
  forceCal := 7
  parityEn := 6
  trigEdge := 5
  stopEdge := 4
  startEdge := 3
  measMode := 1
  startMeas := 0
  tier := 6
  avg := 3
  numStop := 0
  newMeas := 0
  coarseOvf := 1
  clockOvf := 2
  started := 3
  complete := 4
  newMeasMask := 0
  coarseOvfMask := 1
  clockOvfMask := 2

/-- The byte with the one bit `k`. -/
def bitMask (k : Fin 8) : Byte := 1#8 <<< k.val

/-- The bits of a field of two bits from `k` up. -/
def bits2 (k : Fin 8) : Byte := 0x03#8 <<< k.val

/-- The bits of a field of three bits from `k` up. -/
def bits3 (k : Fin 8) : Byte := 0x07#8 <<< k.val

/-- CONFIG1's fields (R29). -/
def Layout.config1Fields (L : Layout) : List Byte :=
  [bitMask L.forceCal, bitMask L.parityEn, bitMask L.trigEdge, bitMask L.stopEdge, bitMask L.startEdge,
   bits2 L.measMode, bitMask L.startMeas]

/-- CONFIG2's fields (R32). -/
def Layout.config2Fields (L : Layout) : List Byte := [bits2 L.tier, bits3 L.avg, bits3 L.numStop]

/-- INT_STATUS's fields (R34). -/
def Layout.statusFields (L : Layout) : List Byte :=
  [bitMask L.newMeas, bitMask L.coarseOvf, bitMask L.clockOvf, bitMask L.started, bitMask L.complete]

/-- INT_MASK's fields (R36). -/
def Layout.maskFields (L : Layout) : List Byte :=
  [bitMask L.newMeasMask, bitMask L.coarseOvfMask, bitMask L.clockOvfMask]

/-- No two fields of a list share a bit. -/
def fieldsDisjoint : List Byte → Bool
  | [] => true
  | m :: rest => rest.all (fun n => m &&& n == 0#8) && fieldsDisjoint rest

/-- A layout that can be: every field inside its register, no two fields of a register on one bit (R28). -/
def Layout.wf (L : Layout) : Bool :=
  decide (L.measMode.val ≤ 6) && decide (L.tier.val ≤ 6) && decide (L.avg.val ≤ 5) && decide (L.numStop.val ≤ 5) &&
  fieldsDisjoint L.config1Fields && fieldsDisjoint L.config2Fields && fieldsDisjoint L.statusFields &&
  fieldsDisjoint L.maskFields

/-- All the bits of a list of fields. -/
def unionOf (fields : List Byte) : Byte := fields.foldr (· ||| ·) 0#8

/-- CONFIG1.FORCE_CAL (R29). -/
def forceCalBit (L : Layout) (v : Byte) : Bool := v.getLsbD L.forceCal.val

/-- CONFIG1.PARITY_EN: the controller's operations write it 0 (R29, R41). A WR8 of its own may set it; it has no effect
then (log entry 36). -/
def parityBit (L : Layout) (v : Byte) : Bool := v.getLsbD L.parityEn.val

/-- CONFIG1.TRIGG_EDGE: 1 when the active TRIG edge falls (R29, R57). -/
def trigEdgeBit (L : Layout) (v : Byte) : Bool := v.getLsbD L.trigEdge.val

/-- CONFIG1.STOP_EDGE: 1 when the active STOP edge falls (R29). -/
def stopEdgeBit (L : Layout) (v : Byte) : Bool := v.getLsbD L.stopEdge.val

/-- CONFIG1.START_EDGE: 1 when the active START edge falls (R29). -/
def startEdgeBit (L : Layout) (v : Byte) : Bool := v.getLsbD L.startEdge.val

/-- CONFIG1.MEAS_MODE (R29, R31). -/
def measModeCode (L : Layout) (v : Byte) : BitVec 2 := v.extractLsb' L.measMode.val 2

/-- CONFIG1.START_MEAS (R29, R30). -/
def startMeasBit (L : Layout) (v : Byte) : Bool := v.getLsbD L.startMeas.val

/-- The value with START_MEAS forced to 0 (R198, R212). -/
def withoutStartMeas (L : Layout) (v : Byte) : Byte := v &&& ~~~ bitMask L.startMeas

/-- The value with START_MEAS set: `v | START_MEAS` (R233). -/
def withStartMeas (L : Layout) (v : Byte) : Byte := v ||| bitMask L.startMeas

/-- CONFIG2.CALIBRATION2_PERIODS (R32). -/
def tierCode (L : Layout) (v : Byte) : BitVec 2 := v.extractLsb' L.tier.val 2

/-- CONFIG2.AVG_CYCLES (R32). -/
def avgCode (L : Layout) (v : Byte) : BitVec 3 := v.extractLsb' L.avg.val 3

/-- CONFIG2.NUM_STOP (R32). -/
def stopCode (L : Layout) (v : Byte) : BitVec 3 := v.extractLsb' L.numStop.val 3

/-- The stop count NUM_STOP stands for: code + 1, the reserved codes acting as one stop (R33). -/
def stopsOfCode (c : BitVec 3) : Nat := if c.toNat ≤ 4 then c.toNat + 1 else 1

/-- The averaging-cycle count AVG_CYCLES stands for: `2 ^ log_avg` (R33). -/
def cyclesOfCode (c : BitVec 3) : Nat := 2 ^ c.toNat

/-- INT_STATUS.NEW_MEAS_INT (R34). -/
def statusNewMeas (L : Layout) : Byte := bitMask L.newMeas

/-- INT_STATUS.COARSE_CNTR_OVF_INT (R34). -/
def statusCoarseOvf (L : Layout) : Byte := bitMask L.coarseOvf

/-- INT_STATUS.CLOCK_CNTR_OVF_INT (R34). -/
def statusClockOvf (L : Layout) : Byte := bitMask L.clockOvf

/-- INT_STATUS.MEAS_STARTED_FLAG (R34). -/
def statusStarted (L : Layout) : Byte := bitMask L.started

/-- INT_STATUS.MEAS_COMPLETE_FLAG (R34). -/
def statusComplete (L : Layout) : Byte := bitMask L.complete

/-- ALL_STATUS: every bit LAYOUT names in INT_STATUS, 0x1F by default (R34, R255). -/
def allStatus (L : Layout) : Byte := unionOf L.statusFields

/-- The INT_STATUS bits that an INT_MASK value lets drive INT: each source bit whose like-named mask bit is 1
(R36, R320). -/
def enabledSources (L : Layout) (mask : Byte) : Byte :=
  (if mask.getLsbD L.newMeasMask.val then statusNewMeas L else 0#8) |||
  (if mask.getLsbD L.coarseOvfMask.val then statusCoarseOvf L else 0#8) |||
  (if mask.getLsbD L.clockOvfMask.val then statusClockOvf L else 0#8)

/-- Write-one-to-clear: what INT_STATUS holds after `v` is written to it (R35). -/
def clearStatusBits (status v : Byte) : Byte := status &&& ~~~v

/-- The bits of an 8-bit register that the controller may send as 1: those LAYOUT gives a field, but for PARITY_EN of
CONFIG1, which the controller always writes as 0; pair bytes are all value (R28, R29, R41, R144). -/
def sentBits (L : Layout) : Reg8 → Byte
  | .config1 => unionOf L.config1Fields &&& ~~~ bitMask L.parityEn
  | .config2 => unionOf L.config2Fields
  | .intStatus => allStatus L
  | .intMask => unionOf L.maskFields
  | .coarseOvfH => 0xFF#8
  | .coarseOvfL => 0xFF#8
  | .clockOvfH => 0xFF#8
  | .clockOvfL => 0xFF#8
  | .stopMaskH => 0xFF#8
  | .stopMaskL => 0xFF#8

/-- The byte the controller sends to an 8-bit register: bits with no field, and PARITY_EN of CONFIG1, are written 0 (R28,
R41, R144; log entries 24 and 36). -/
def sentByte (L : Layout) (r : Reg8) (v : Byte) : Byte := v &&& sentBits L r

/-- The byte of the arming write: the mirror's CONFIG1 with START_MEAS set, every bit the controller does not send as 0
(R233; R28, R41; log entries 24 and 36). -/
def armByte (L : Layout) (config1 : Byte) : Byte := sentByte L .config1 (withStartMeas L config1)

/-- A value that holds a reserved field code: MEAS_MODE 0b10 or 0b11 in CONFIG1, NUM_STOP 0b101 to 0b111 in
CONFIG2 (R31, R33, R144). -/
def holdsReservedCode (L : Layout) (r : Reg8) (v : Byte) : Bool :=
  match r with
  | .config1 => decide (2 ≤ (measModeCode L v).toNat)
  | .config2 => decide (5 ≤ (stopCode L v).toNat)
  | .intStatus => false
  | .intMask => false
  | .coarseOvfH => false
  | .coarseOvfL => false
  | .clockOvfH => false
  | .clockOvfL => false
  | .stopMaskH => false
  | .stopMaskL => false

end Sys2Proof.Machine
end

