-- ==== Sys2Proof/Machine/Bytes.lean ====
section
/-! DEFINITION. Byte order and byte sequences: splitting and joining 16-bit and 24-bit values, most significant
byte first (spec/20_memory.md R83, R84; spec/30_encoding.md R128, R129), and the command byte (R121). -/

namespace Sys2Proof.Machine

/-- Bits 15:8 of a pair value: the `_H` byte (R84). -/
def hiByte (v : Half) : Byte := v.extractLsb' 8 8

/-- Bits 7:0 of a pair value: the `_L` byte (R84). -/
def loByte (v : Half) : Byte := v.extractLsb' 0 8

/-- `{h, l}`, that is `h<<8 | l`: the 16-bit value of a pair (R27, R128). -/
def joinHalf (h l : Byte) : Half := h.setWidth 16 <<< 8 ||| l.setWidth 16

/-- The three bytes of a 24-bit register, most significant first (R83). -/
def bytes24 (v : Word24) : List Byte :=
  [v.extractLsb' 16 8, v.extractLsb' 8 8, v.extractLsb' 0 8]

/-- `{a, b, c}`: the 24-bit value of three received bytes (R128). -/
def join24 (a b c : Byte) : Word24 := a.setWidth 24 <<< 16 ||| b.setWidth 24 <<< 8 ||| c.setWidth 24

/-- Byte `k` of a received sequence; a byte that was never received reads 0 (not reached on a legal frame). -/
def byteAt (l : List Byte) (k : Nat) : Byte := l.getD k 0

/-- Exactly `n` bytes of a drawn sequence. -/
def takeBytes : Nat → List Byte → List Byte
  | 0, _ => []
  | n + 1, l => l.headD 0 :: takeBytes n l.tail

/-- The command byte `{auto, write, addr}`: `addr | (0x40 if write) | (0x80 if auto-increment)` (R121). -/
def commandByte (auto write : Bool) (a : Addr) : Byte :=
  a.setWidth 8 ||| (if write then 0x40#8 else 0#8) ||| (if auto then 0x80#8 else 0#8)

/-- Bit 7 of the command byte: auto-increment (R121). -/
def commandAuto (c : Byte) : Bool := c.getLsbD 7

/-- Bit 6 of the command byte: write (R121). -/
def commandWrite (c : Byte) : Bool := c.getLsbD 6

/-- Bits 5:0 of the command byte: the start address (R121). -/
def commandAddr (c : Byte) : Addr := c.extractLsb' 0 6

end Sys2Proof.Machine
end

