-- ==== Sys2Proof/Machine/RegFile.lean ====
section
/-! DEFINITION. Register addresses (spec/10_state.md R22, R25, R27) and the three register-shaped containers: one
entry per 8-bit register, per pair, per 24-bit register. The target's registers, the mirror and the reset values
all have these shapes. -/

namespace Sys2Proof.Machine

/-- The address of an 8-bit register (R22). -/
def regAddr8 : Reg8 → Addr
  | .config1 => 0x00#6
  | .config2 => 0x01#6
  | .intStatus => 0x02#6
  | .intMask => 0x03#6
  | .coarseOvfH => 0x04#6
  | .coarseOvfL => 0x05#6
  | .clockOvfH => 0x06#6
  | .clockOvfL => 0x07#6
  | .stopMaskH => 0x08#6
  | .stopMaskL => 0x09#6

/-- The start address of a pair: its `_H` register's (R27, R85). -/
def regAddrPair : Pair → Addr
  | .coarseOvf => 0x04#6
  | .clockOvf => 0x06#6
  | .stopMask => 0x08#6

/-- The address of a 24-bit register (R22, decision D7). -/
def regAddr24 : Reg24 → Addr
  | .time1 => 0x10#6
  | .clockCount1 => 0x11#6
  | .time2 => 0x12#6
  | .clockCount2 => 0x13#6
  | .time3 => 0x14#6
  | .clockCount3 => 0x15#6
  | .time4 => 0x16#6
  | .clockCount4 => 0x17#6
  | .time5 => 0x18#6
  | .clockCount5 => 0x19#6
  | .time6 => 0x1A#6
  | .calibration1 => 0x1B#6
  | .calibration2 => 0x1C#6

/-- The 8-bit register at an address, if there is one (R25). -/
def regOf8 (a : Addr) : Option Reg8 :=
  match a.toNat with
  | 0 => some .config1
  | 1 => some .config2
  | 2 => some .intStatus
  | 3 => some .intMask
  | 4 => some .coarseOvfH
  | 5 => some .coarseOvfL
  | 6 => some .clockOvfH
  | 7 => some .clockOvfL
  | 8 => some .stopMaskH
  | 9 => some .stopMaskL
  | _ => none

/-- The pair that starts at an address, if there is one (R85). -/
def regOfPair (a : Addr) : Option Pair :=
  match a.toNat with
  | 4 => some .coarseOvf
  | 6 => some .clockOvf
  | 8 => some .stopMask
  | _ => none

/-- The 24-bit register at an address, if there is one (R25). -/
def regOf24 (a : Addr) : Option Reg24 :=
  match a.toNat with
  | 16 => some .time1
  | 17 => some .clockCount1
  | 18 => some .time2
  | 19 => some .clockCount2
  | 20 => some .time3
  | 21 => some .clockCount3
  | 22 => some .time4
  | 23 => some .clockCount4
  | 24 => some .time5
  | 25 => some .clockCount5
  | 26 => some .time6
  | 27 => some .calibration1
  | 28 => some .calibration2
  | _ => none

/-- The `_H` register of a pair (R27). -/
def pairHi : Pair → Reg8
  | .coarseOvf => .coarseOvfH
  | .clockOvf => .clockOvfH
  | .stopMask => .stopMaskH

/-- The `_L` register of a pair (R27). -/
def pairLo : Pair → Reg8
  | .coarseOvf => .coarseOvfL
  | .clockOvf => .clockOvfL
  | .stopMask => .stopMaskL

/-- The pair an 8-bit register belongs to, if any (R27, R44). -/
def pairOf : Reg8 → Option Pair
  | .coarseOvfH => some .coarseOvf
  | .coarseOvfL => some .coarseOvf
  | .clockOvfH => some .clockOvf
  | .clockOvfL => some .clockOvf
  | .stopMaskH => some .stopMask
  | .stopMaskL => some .stopMask
  | .config1 => none
  | .config2 => none
  | .intStatus => none
  | .intMask => none

/-- One entry per 8-bit register. -/
structure File8 (α : Type) where
  config1 : α
  config2 : α
  intStatus : α
  intMask : α
  coarseOvfH : α
  coarseOvfL : α
  clockOvfH : α
  clockOvfL : α
  stopMaskH : α
  stopMaskL : α
deriving DecidableEq, Repr, Inhabited

/-- The entry of register `r`. -/
def File8.get (f : File8 α) : Reg8 → α
  | .config1 => f.config1
  | .config2 => f.config2
  | .intStatus => f.intStatus
  | .intMask => f.intMask
  | .coarseOvfH => f.coarseOvfH
  | .coarseOvfL => f.coarseOvfL
  | .clockOvfH => f.clockOvfH
  | .clockOvfL => f.clockOvfL
  | .stopMaskH => f.stopMaskH
  | .stopMaskL => f.stopMaskL

/-- The container with the entry of `r` replaced by `v`. -/
def File8.set (f : File8 α) (r : Reg8) (v : α) : File8 α :=
  match r with
  | .config1 => { f with config1 := v }
  | .config2 => { f with config2 := v }
  | .intStatus => { f with intStatus := v }
  | .intMask => { f with intMask := v }
  | .coarseOvfH => { f with coarseOvfH := v }
  | .coarseOvfL => { f with coarseOvfL := v }
  | .clockOvfH => { f with clockOvfH := v }
  | .clockOvfL => { f with clockOvfL := v }
  | .stopMaskH => { f with stopMaskH := v }
  | .stopMaskL => { f with stopMaskL := v }

/-- The same entry everywhere. -/
def File8.fill (v : α) : File8 α :=
  ⟨v, v, v, v, v, v, v, v, v, v⟩

/-- `g` applied to every entry. -/
def File8.map (g : α → β) (f : File8 α) : File8 β :=
  ⟨g f.config1, g f.config2, g f.intStatus, g f.intMask, g f.coarseOvfH, g f.coarseOvfL,
   g f.clockOvfH, g f.clockOvfL, g f.stopMaskH, g f.stopMaskL⟩

/-- The entries in address order. -/
def File8.toList (f : File8 α) : List α :=
  [f.config1, f.config2, f.intStatus, f.intMask, f.coarseOvfH, f.coarseOvfL,
   f.clockOvfH, f.clockOvfL, f.stopMaskH, f.stopMaskL]

/-- One entry per pair. -/
structure FilePair (α : Type) where
  coarseOvf : α
  clockOvf : α
  stopMask : α
deriving DecidableEq, Repr, Inhabited

/-- The entry of register `r`. -/
def FilePair.get (f : FilePair α) : Pair → α
  | .coarseOvf => f.coarseOvf
  | .clockOvf => f.clockOvf
  | .stopMask => f.stopMask

/-- The container with the entry of `r` replaced by `v`. -/
def FilePair.set (f : FilePair α) (r : Pair) (v : α) : FilePair α :=
  match r with
  | .coarseOvf => { f with coarseOvf := v }
  | .clockOvf => { f with clockOvf := v }
  | .stopMask => { f with stopMask := v }

/-- The same entry everywhere. -/
def FilePair.fill (v : α) : FilePair α :=
  ⟨v, v, v⟩

/-- `g` applied to every entry. -/
def FilePair.map (g : α → β) (f : FilePair α) : FilePair β :=
  ⟨g f.coarseOvf, g f.clockOvf, g f.stopMask⟩

/-- The entries in address order. -/
def FilePair.toList (f : FilePair α) : List α :=
  [f.coarseOvf, f.clockOvf, f.stopMask]

/-- One entry per 24-bit register. -/
structure File24 (α : Type) where
  time1 : α
  clockCount1 : α
  time2 : α
  clockCount2 : α
  time3 : α
  clockCount3 : α
  time4 : α
  clockCount4 : α
  time5 : α
  clockCount5 : α
  time6 : α
  calibration1 : α
  calibration2 : α
deriving DecidableEq, Repr, Inhabited

/-- The entry of register `r`. -/
def File24.get (f : File24 α) : Reg24 → α
  | .time1 => f.time1
  | .clockCount1 => f.clockCount1
  | .time2 => f.time2
  | .clockCount2 => f.clockCount2
  | .time3 => f.time3
  | .clockCount3 => f.clockCount3
  | .time4 => f.time4
  | .clockCount4 => f.clockCount4
  | .time5 => f.time5
  | .clockCount5 => f.clockCount5
  | .time6 => f.time6
  | .calibration1 => f.calibration1
  | .calibration2 => f.calibration2

/-- The container with the entry of `r` replaced by `v`. -/
def File24.set (f : File24 α) (r : Reg24) (v : α) : File24 α :=
  match r with
  | .time1 => { f with time1 := v }
  | .clockCount1 => { f with clockCount1 := v }
  | .time2 => { f with time2 := v }
  | .clockCount2 => { f with clockCount2 := v }
  | .time3 => { f with time3 := v }
  | .clockCount3 => { f with clockCount3 := v }
  | .time4 => { f with time4 := v }
  | .clockCount4 => { f with clockCount4 := v }
  | .time5 => { f with time5 := v }
  | .clockCount5 => { f with clockCount5 := v }
  | .time6 => { f with time6 := v }
  | .calibration1 => { f with calibration1 := v }
  | .calibration2 => { f with calibration2 := v }

/-- The same entry everywhere. -/
def File24.fill (v : α) : File24 α :=
  ⟨v, v, v, v, v, v, v, v, v, v, v, v, v⟩

/-- `g` applied to every entry. -/
def File24.map (g : α → β) (f : File24 α) : File24 β :=
  ⟨g f.time1, g f.clockCount1, g f.time2, g f.clockCount2, g f.time3, g f.clockCount3,
   g f.time4, g f.clockCount4, g f.time5, g f.clockCount5, g f.time6,
   g f.calibration1, g f.calibration2⟩

/-- The entries in address order. -/
def File24.toList (f : File24 α) : List α :=
  [f.time1, f.clockCount1, f.time2, f.clockCount2, f.time3, f.clockCount3,
   f.time4, f.clockCount4, f.time5, f.clockCount5, f.time6, f.calibration1, f.calibration2]

/-- The ten registers' values from the data bytes of a bulk read, filled positionally (R125, R130). -/
def file8OfBytes (l : List Byte) : File8 Byte :=
  ⟨byteAt l 0, byteAt l 1, byteAt l 2, byteAt l 3, byteAt l 4, byteAt l 5, byteAt l 6, byteAt l 7, byteAt l 8, byteAt l 9⟩

/-- The thirteen registers' values from the data bytes of a bulk read, filled positionally (R126, R130). -/
def file24OfBytes (l : List Byte) : File24 Word24 :=
  ⟨join24 (byteAt l 0) (byteAt l 1) (byteAt l 2),
   join24 (byteAt l 3) (byteAt l 4) (byteAt l 5),
   join24 (byteAt l 6) (byteAt l 7) (byteAt l 8),
   join24 (byteAt l 9) (byteAt l 10) (byteAt l 11),
   join24 (byteAt l 12) (byteAt l 13) (byteAt l 14),
   join24 (byteAt l 15) (byteAt l 16) (byteAt l 17),
   join24 (byteAt l 18) (byteAt l 19) (byteAt l 20),
   join24 (byteAt l 21) (byteAt l 22) (byteAt l 23),
   join24 (byteAt l 24) (byteAt l 25) (byteAt l 26),
   join24 (byteAt l 27) (byteAt l 28) (byteAt l 29),
   join24 (byteAt l 30) (byteAt l 31) (byteAt l 32),
   join24 (byteAt l 33) (byteAt l 34) (byteAt l 35),
   join24 (byteAt l 36) (byteAt l 37) (byteAt l 38)⟩

end Sys2Proof.Machine
end

