-- ==== Sys2Proof/Config.lean ====
section
/-! DEFINITION. What is fixed for a machine and what stays free: the parameters of spec/00_scope.md R7 (`Params`),
the environment's draws (`Turn`), and the opaque constants. An opaque constant has no body: nothing can be proved of
its value (log entries 2 and 3). -/

namespace Sys2Proof.Machine

/-- The eight pin roles (spec/10_state.md R56). -/
inductive PinRole where
  | enable | oscEnable | trig1 | trig2 | int1 | int2 | start | stop
deriving DecidableEq, Repr, Inhabited

/-- PINS: for each role, whether a line is assigned to it (R7, R56). -/
structure Pins where
  enable    : Bool
  oscEnable : Bool
  trig1     : Bool
  trig2     : Bool
  int1      : Bool
  int2      : Bool
  start     : Bool
  stop      : Bool
deriving DecidableEq, Repr, Inhabited

/-- The rounding directions of IEEE 754. R304 names none. -/
inductive Rounding where
  | nearestEven | nearestAway | upward | downward | towardZero
deriving DecidableEq, Repr, Inhabited

/-- FLOAT: the number system results are delivered in: exact rationals, or binary64 numbers in some rounding direction
(R7, R304; log entry 29). -/
inductive NumberSystem where
  | exact
  | binary64 (r : Rounding)
deriving DecidableEq, Repr, Inhabited

/-- The implementation parameters of R7. SIDE is fixed at 1; SIM_DRAW is part of `Turn`. No step writes them
(R365). -/
structure Params where
  /-- CLOCK_PERIOD, seconds. -/
  clockPeriod  : Rat
  /-- BUS_MIN_HZ. -/
  busMin       : Rat
  /-- BUS_RATED_MAX_HZ. -/
  busRated     : Rat
  /-- BUS_ABS_CEILING_HZ. -/
  busCeiling   : Rat
  /-- T_RESET_MIN, seconds. -/
  tResetMin    : Rat
  /-- T_SETTLE, seconds. -/
  tSettle      : Rat
  /-- T_TRIG_DEADLINE, seconds. -/
  tTrigDeadline : Rat
  /-- T_INT_MARGIN, seconds. -/
  tIntMargin   : Rat
  /-- T_POLL_SLACK, seconds. -/
  tPollSlack   : Rat
  /-- RETRY_LIMIT: `none` is unbounded. -/
  retryLimit   : Option Nat
  /-- LAYOUT. -/
  layout       : Layout
  /-- RESET_REGS, the 8-bit registers. -/
  reset8       : File8 Byte
  /-- RESET_REGS, the 24-bit registers. -/
  reset24      : File24 Word24
  /-- INT_ACTIVE. -/
  intActive    : Bool
  /-- INT_MASK_VALUE. -/
  intMaskValue : Byte
  /-- PINS. -/
  pins         : Pins
  /-- SIMULATE. -/
  simulate     : Bool
  /-- FLOAT. -/
  float        : NumberSystem
deriving DecidableEq, Repr

/-- The constraints R7 states on the parameters. -/
def Params.wf (p : Params) : Bool :=
  decide (0 < p.clockPeriod) && decide (0 < p.busMin) && decide (p.busMin ≤ p.busRated) &&
  decide (p.busRated ≤ p.busCeiling) && decide (0 < p.tResetMin) &&
  decide ((1 : Rat) / 1000 ≤ p.tSettle) && decide (p.tSettle ≤ 1 / 100) &&
  decide (0 < p.tTrigDeadline) && decide (p.tTrigDeadline ≤ 1 / 10) &&
  decide (0 ≤ p.tIntMargin) && decide (0 ≤ p.tPollSlack) && decide (p.retryLimit ≠ some 0) &&
  p.layout.wf

/-- What the environment does to the target, as far as the controller's own actions do not (R260 to R267). -/
inductive Event where
  /-- The armed target drives TRIG active: "signal ready" (R260). -/
  | trigReady
  /-- An edge on the START input (R261). -/
  | startEdge (rising : Bool)
  /-- An edge on the STOP input (R262). -/
  | stopEdge (rising : Bool)
  /-- The coarse counter advances (R264, R337). -/
  | coarse (ticks : Nat)
  /-- The end of the measurement is done, its calibration and its writes; a disturbed one may begin to end (R102, R263,
  R264). -/
  | finish
  /-- The target wedges; TRIG and INT stick at these levels (R267). -/
  | wedge (trig int : Bool)
deriving DecidableEq, Repr, Inhabited

/-- The draw of one transfer (R97). -/
inductive Noise where
  | clean
  | corrupt
deriving DecidableEq, Repr, Inhabited

/-- What a second arming does to a busy target (R260, R380, U7). -/
inductive Rearm where
  | ignored
  | restarts
  | wedges
deriving DecidableEq, Repr, Inhabited

/-- Which of the values a result register has around a measurement a read while busy sees (R88, R101, U9). -/
inductive Instant where
  /-- The value from before the arming. -/
  | before
  /-- The value it holds: zero since the arming (R260). -/
  | held
  /-- The value the measurement writes, if its slot was captured by now. -/
  | after
deriving DecidableEq, Repr, Inhabited

/-- One turn of the environment: what happens before one action of the controller, and the draws that action may
read. Every field is free (R3d, R10 `draw`; log entry 1). -/
structure Turn where
  /-- Waits in seconds (a negative one counts as 0), each followed by an event. -/
  before    : List (Rat × Event)
  /-- The wait after the last event. -/
  wait      : Rat
  /-- `noise` of this action's transfer (R97). -/
  noise     : Noise
  /-- Bytes of a corrupt transfer (R97, U6). -/
  data      : List Byte
  /-- What the target sends back during a write (R99, U32). -/
  echo      : List Byte
  /-- For each result register, which of its values a read while busy sees (U9). -/
  seen      : File24 Instant
  /-- A read of INT_STATUS while busy sees the value from before the arming (R101; log entry 41). -/
  statusOld : Bool
  /-- Else, the status bits of the measurement in flight that have landed, as this action sees INT_STATUS (R101). -/
  landed    : Byte
  /-- A read of CONFIG1 while the measurement ends sees START_MEAS cleared (R30, R101). -/
  cleared   : Bool
  /-- Waits and events between the registers of this action's bulk read (R88). -/
  gaps      : List (List (Rat × Event))
  /-- The result values that a measurement armed, or disturbed, by this action's transfer writes (R266, U8). -/
  results   : File24 Word24
  /-- `int_lost` of a completion or overflow whose end is done in this turn (R265). -/
  intLost   : Bool
  /-- What an arming of a busy target does (U7). -/
  rearm     : Rearm
  /-- The TRIG level if this turn's second arming wedges the target (U11). -/
  stuckTrig : Bool
  /-- The INT level if this turn's second arming wedges the target (U11). -/
  stuckInt  : Bool
  /-- Whether a STOP edge at the very count of the stop mask is captured (log entry 16). -/
  atMask    : Bool
  /-- Whether an ENABLE raised too early has reset the target (R372; log entry 38). -/
  resets    : Bool
  /-- Whether the transport can be opened (R191, U16). -/
  opens     : Bool
  /-- The number of simulated STOP pulses asked for (R246, U15). -/
  pulses    : Nat
deriving DecidableEq, Repr, Inhabited

/-- FREE: the environment's turn number `n` once the script is over (log entry 2). -/
opaque Config.turn : Nat → Turn

/-- FREE: CLOCK_PERIOD as (numerator − 1, denominator − 1) (R7, OPEN; log entry 3). -/
opaque Config.clockPeriodRaw : Nat × Nat

/-- FREE: how far BUS_MIN_HZ lies below the rated maximum (R7, OPEN; log entry 3). -/
opaque Config.busMinRaw : Nat × Nat

/-- FREE: how far BUS_ABS_CEILING_HZ lies above the rated maximum (R7, OPEN; log entry 3). -/
opaque Config.busCeilingRaw : Nat × Nat

/-- FREE: T_RESET_MIN as (numerator − 1, denominator − 1) (R7, OPEN; log entry 3). -/
opaque Config.tResetRaw : Nat × Nat

/-- FREE: T_TRIG_DEADLINE's fraction of 0.1 s (R7, OPEN; log entry 3). -/
opaque Config.tTrigRaw : Nat × Nat

/-- FREE: T_INT_MARGIN as (numerator, denominator − 1) (R7, OPEN; log entry 3). -/
opaque Config.tMarginRaw : Nat × Nat

/-- FREE: T_POLL_SLACK as (numerator, denominator − 1) (R7, OPEN; log entry 3). -/
opaque Config.tSlackRaw : Nat × Nat

/-- A positive rational from a free pair. -/
def positiveRat (x : Nat × Nat) : Rat := ((x.1 : Rat) + 1) / ((x.2 : Rat) + 1)

/-- A non-negative rational from a free pair. -/
def nonnegRat (x : Nat × Nat) : Rat := (x.1 : Rat) / ((x.2 : Rat) + 1)

/-- A rational in (0, 1] from a free pair. -/
def fractionRat (x : Nat × Nat) : Rat := ((x.1 : Rat) + 1) / ((x.1 : Rat) + (x.2 : Rat) + 1)

/-- The default RESET_REGS, 8-bit registers (R361). -/
def defaultReset8 : File8 Byte :=
  ⟨0x00#8, 0x40#8, 0x00#8, 0x07#8, 0xFF#8, 0xFF#8, 0xFF#8, 0xFF#8, 0x00#8, 0x00#8⟩

/-- The default RESET_REGS, 24-bit registers: all 0 (R361). -/
def defaultReset24 : File24 Word24 := File24.fill 0x000000#24

/-- BUS_RATED_MAX_HZ's default, 25 MHz (R7). -/
def defaultRated : Rat := 25000000

/-- The parameters of the machine at `State.reset`: R7's defaults, free values where R7 says OPEN, every pin
assigned and simulate mode off (log entries 3 and 4). -/
def defaultParams : Params where
  clockPeriod  := positiveRat Config.clockPeriodRaw
  busMin       := defaultRated * fractionRat Config.busMinRaw
  busRated     := defaultRated
  busCeiling   := defaultRated * (1 + nonnegRat Config.busCeilingRaw)
  tResetMin    := positiveRat Config.tResetRaw
  tSettle      := 1 / 100
  tTrigDeadline := 1 / 10 * fractionRat Config.tTrigRaw
  tIntMargin   := nonnegRat Config.tMarginRaw
  tPollSlack   := nonnegRat Config.tSlackRaw
  retryLimit   := none
  layout       := defaultLayout
  reset8       := defaultReset8
  reset24      := defaultReset24
  intActive    := false
  intMaskValue := 0x07#8
  pins         := ⟨true, true, true, true, true, true, true, true⟩
  simulate     := false
  float        := .exact

end Sys2Proof.Machine
end

