-- ==== Sys2Proof/Decode.lean ====
section
/-! DEFINITION. The decoder: total on every request, rejecting by name; then the encoder, from the same tables
(spec/30_encoding.md R120 to R127, R140 to R143, R148); then the reading of a word numbered as
spec/opcode_table.json numbers it. -/

namespace Sys2Proof

open Machine

/-- Why a request names no instruction. Each is the spec's own refusal, raised by the decoder, and safe: the
model stops where the spec gives no meaning. -/
inductive DecodeError where
  /-- A frame with no command byte (R120). -/
  | emptyFrame
  /-- An address in 0x0A to 0x0F or 0x1D to 0x3F (R141). -/
  | reservedAddress
  /-- A write frame addressed to a 24-bit register (R142). -/
  | resultWrite
  /-- A (command byte, length) outside the table of legal shapes (R86, R140, R143). -/
  | illegalShape
  /-- A host operation with missing, surplus or wrongly typed operands (R148). -/
  | badOperands
  /-- A rational where the operation takes an integer (decision D19). -/
  | nonInteger
deriving DecidableEq, Repr

/-- No register has this address: 0x0A to 0x0F and 0x1D to 0x3F (R25, R141). -/
def addrReserved (a : Addr) : Bool := (regOf8 a).isNone && (regOf24 a).isNone

/-- Name an absent register as an illegal shape. -/
def shapeOf (i : Option Instr) : Except DecodeError Instr :=
  match i with
  | some i => .ok i
  | none => .error .illegalShape

/-- A read frame of one register, `00aaaaaa`: RD8 by two bytes, RD24 by four (R122, R124, R127). -/
def decodePlainRead (a : Addr) (data : List Byte) : Except DecodeError Instr :=
  match data with
  | [_] => shapeOf ((regOf8 a).map .rd8)
  | [_, _, _] => shapeOf ((regOf24 a).map .rd24)
  | _ => .error .illegalShape

/-- A write frame of one register, `01aaaaaa` (R122). -/
def decodePlainWrite (a : Addr) (data : List Byte) : Except DecodeError Instr :=
  match data with
  | [v] => shapeOf ((regOf8 a).map fun r => .wr8 r v)
  | _ => .error .illegalShape

/-- An auto-increment read, `10aaaaaa`: a pair, the 8-bit block or the 24-bit block, by address and length
(R123, R125, R126, R143). -/
def decodeAutoRead (a : Addr) (data : List Byte) : Except DecodeError Instr :=
  if data.length = 2 then shapeOf ((regOfPair a).map .rd16)
  else if data.length = 10 ∧ a = 0x00#6 then .ok .rdall8
  else if data.length = 39 ∧ a = 0x10#6 then .ok .rdall24
  else .error .illegalShape

/-- An auto-increment write, `11aaaaaa`: a pair, high byte first (R123, R129, R143). -/
def decodeAutoWrite (a : Addr) (data : List Byte) : Except DecodeError Instr :=
  match data with
  | [h, l] => shapeOf ((regOfPair a).map fun p => .wr16 p (joinHalf h l))
  | _ => .error .illegalShape

/-- The bus transaction a frame stands for, selected by (command byte, length) (R127, R140 to R143). -/
def decodeFrame (bytes : List Byte) : Except DecodeError Instr :=
  match bytes with
  | [] => .error .emptyFrame
  | c :: data =>
    let a := commandAddr c
    if addrReserved a then .error .reservedAddress
    else if commandWrite c && (regOf24 a).isSome then .error .resultWrite
    else if commandAuto c then
      (if commandWrite c then decodeAutoWrite a data else decodeAutoRead a data)
    else
      (if commandWrite c then decodePlainWrite a data else decodePlainRead a data)

/-- An integer operand; a rational is refused (decision D19). -/
def asInt : Operand → Except DecodeError Int
  | .int z => .ok z
  | .rat _ => .error .nonInteger
  | .flag _ => .error .badOperands
  | .name _ => .error .badOperands
  | .addr _ => .error .badOperands

/-- A rational operand; an integer is one (R193). -/
def asRat : Operand → Except DecodeError Rat
  | .rat q => .ok q
  | .int z => .ok z
  | .flag _ => .error .badOperands
  | .name _ => .error .badOperands
  | .addr _ => .error .badOperands

/-- A bool operand. -/
def asFlag : Operand → Except DecodeError Bool
  | .flag b => .ok b
  | .int _ => .error .badOperands
  | .rat _ => .error .badOperands
  | .name _ => .error .badOperands
  | .addr _ => .error .badOperands

/-- An unsigned register value (R9). -/
def asNat (o : Operand) : Except DecodeError Nat :=
  match o with
  | .int z => if 0 ≤ z then .ok z.toNat else .error .badOperands
  | .rat _ => .error .nonInteger
  | .flag _ => .error .badOperands
  | .name _ => .error .badOperands
  | .addr _ => .error .badOperands

/-- The register at an address, named; a pair is named by its 16-bit name only (R147). -/
def regNameAt (a : Addr) : Except DecodeError RegName :=
  match regOf8 a with
  | some r => .ok (.byte r)
  | none =>
    match regOf24 a with
    | some r => .ok (.result r)
    | none => .error .reservedAddress

/-- A register operand, by name or by address (R147). -/
def asReg : Operand → Except DecodeError RegName
  | .name r => .ok r
  | .addr a => regNameAt a
  | .int _ => .error .badOperands
  | .rat _ => .error .badOperands
  | .flag _ => .error .badOperands

/-- The overflow operand: an integer is a count, a rational a time (R135, R202). -/
def asOverflow : Operand → Except DecodeError OverflowRequest
  | .int z => .ok (.count z)
  | .rat q => .ok (.timeout q)
  | .flag _ => .error .badOperands
  | .name _ => .error .badOperands
  | .addr _ => .error .badOperands

/-- CONFIGURE's ten operands, in the order of R202. -/
def decodeConfigure : List Operand → Except DecodeError Instr
  | [mode, force, trig, start, stop, cal, avg, stops, mask, ovf] => do
    let measMode ← asInt mode
    let forceCal ← asFlag force
    let trigFalling ← asFlag trig
    let startFalling ← asFlag start
    let stopFalling ← asFlag stop
    let calPeriods ← asInt cal
    let avgCycles ← asInt avg
    let numStop ← asInt stops
    let stopMask ← asInt mask
    let overflow ← asOverflow ovf
    .ok (.configure ⟨measMode, forceCal, trigFalling, startFalling, stopFalling, calPeriods, avgCycles, numStop,
      stopMask, overflow⟩)
  | _ => .error .badOperands

/-- A host operation that takes no operands. -/
def decodeBare (i : Instr) (operands : List Operand) : Except DecodeError Instr :=
  if operands.isEmpty then .ok i else .error .badOperands

/-- SET_CLOCK_SPEED's operands: `requested`, `force` (R193). -/
def decodeSetClockSpeed : List Operand → Except DecodeError Instr
  | [q, f] => do
    let requested ← asRat q
    let force ← asFlag f
    .ok (.setClockSpeed requested force)
  | _ => .error .badOperands

/-- CLEAR_STATUS's operand: `force` (R255). -/
def decodeClearStatus : List Operand → Except DecodeError Instr
  | [f] => do
    let force ← asFlag f
    .ok (.clearStatus force)
  | _ => .error .badOperands

/-- REG_READ's operand: a register name (R170). -/
def decodeRegRead : List Operand → Except DecodeError Instr
  | [r] => do
    let name ← asReg r
    .ok (.regRead name)
  | _ => .error .badOperands

/-- REG_WRITE's operands: a register name and a value (R171). -/
def decodeRegWrite : List Operand → Except DecodeError Instr
  | [r, v] => do
    let name ← asReg r
    let value ← asNat v
    .ok (.regWrite name value)
  | _ => .error .badOperands

/-- The host operation of a 4-bit code (R148). -/
def decodeHop (code : BitVec 4) (operands : List Operand) : Except DecodeError Instr :=
  match code.toNat with
  | 0x0 => decodeBare .openBus operands
  | 0x1 => decodeSetClockSpeed operands
  | 0x2 => decodeBare .powerOff operands
  | 0x3 => decodeBare .powerOn operands
  | 0x4 => decodeConfigure operands
  | 0x5 => decodeBare .configureRetain operands
  | 0x6 => decodeBare .measure operands
  | 0x7 => decodeClearStatus operands
  | 0x8 => decodeBare .readRegs8 operands
  | 0x9 => decodeBare .readRegs24 operands
  | 0xA => decodeBare .computeTofs operands
  | 0xB => decodeBare .cleanup operands
  | 0xC => decodeRegRead operands
  | 0xD => decodeBare .hardRecover operands
  | 0xE => decodeRegWrite operands
  | _ => decodeBare .reservedHopF operands

/-- The instruction a request stands for, or why it stands for none. -/
def decode : Request → Except DecodeError Instr
  | .frame bytes => decodeFrame bytes
  | .hop code operands => decodeHop code operands

/-- `n` bytes of zero padding (R120). -/
def zeros (n : Nat) : List Byte := List.replicate n 0x00#8

/-- CONFIGURE's operands as the host passes them (R202). -/
def configureOperands (q : ConfigRequest) : List Operand :=
  [.int q.measMode, .flag q.forceCal, .flag q.trigFalling, .flag q.startFalling, .flag q.stopFalling,
   .int q.calPeriods, .int q.avgCycles, .int q.numStop, .int q.stopMask,
   match q.overflow with
   | .count n => .int n
   | .timeout t => .rat t]

/-- The request of an instruction: its frame (R122 to R126), or its code and operands (R148). -/
def encode : Instr → Request
  | .rd8 r => .frame [commandByte false false (regAddr8 r), 0x00#8]
  | .wr8 r v => .frame [commandByte false true (regAddr8 r), v]
  | .rd16 p => .frame [commandByte true false (regAddrPair p), 0x00#8, 0x00#8]
  | .wr16 p v => .frame [commandByte true true (regAddrPair p), hiByte v, loByte v]
  | .rd24 r => .frame [commandByte false false (regAddr24 r), 0x00#8, 0x00#8, 0x00#8]
  | .rdall8 => .frame (commandByte true false 0x00#6 :: zeros 10)
  | .rdall24 => .frame (commandByte true false 0x10#6 :: zeros 39)
  | .openBus => .hop 0x0#4 []
  | .setClockSpeed requested force => .hop 0x1#4 [.rat requested, .flag force]
  | .powerOff => .hop 0x2#4 []
  | .powerOn => .hop 0x3#4 []
  | .configure request => .hop 0x4#4 (configureOperands request)
  | .configureRetain => .hop 0x5#4 []
  | .measure => .hop 0x6#4 []
  | .clearStatus force => .hop 0x7#4 [.flag force]
  | .readRegs8 => .hop 0x8#4 []
  | .readRegs24 => .hop 0x9#4 []
  | .computeTofs => .hop 0xA#4 []
  | .cleanup => .hop 0xB#4 []
  | .regRead name => .hop 0xC#4 [.name name]
  | .hardRecover => .hop 0xD#4 []
  | .regWrite name value => .hop 0xE#4 [.name name, .int value]
  | .reservedHopF => .hop 0xF#4 []

/-- The one legal frame length, in bytes, of a command byte (R140); 1 where no frame with that byte is legal. -/
def frameLength (c : Byte) : Nat :=
  let a := commandAddr c
  if commandAuto c then
    (if commandWrite c then 3 else if a = 0x00#6 then 11 else if a = 0x10#6 then 40 else 3)
  else if commandWrite c then 2
  else if (regOf8 a).isSome then 2
  else if (regOf24 a).isSome then 4
  else 1

/-- The first `n` bytes of a word whose bit 0 is the least significant bit of the first byte. -/
def wordBytes (w : Nat) : Nat → List Byte
  | 0 => []
  | n + 1 => BitVec.ofNat 8 w :: wordBytes (w / 256) n

/-- Operands of zeros for a host-operation code (log entry 9). -/
def zeroOperands (code : BitVec 4) : List Operand :=
  match code.toNat with
  | 0x1 => [.rat 0, .flag false]
  | 0x4 => [.int 0, .flag false, .flag false, .flag false, .flag false, .int 0, .int 0, .int 0, .int 0, .int 0]
  | 0x7 => [.flag false]
  | 0xC => [.addr 0x00#6]
  | 0xE => [.addr 0x00#6, .int 0]
  | _ => []

/-- The request of a table word. The table gives a host operation 4 bits and a frame only its command byte, and does
not say which of the two spaces a word belongs to: a single byte below 0x10 is read as a host-operation code, any
other word as a frame of its command byte's legal length, the bytes above the word being zeros (log entry 9). -/
def tableRequest (nbits w : Nat) : Request :=
  if nbits ≤ 8 ∧ w < 16 then .hop (BitVec.ofNat 4 w) (zeroOperands (BitVec.ofNat 4 w))
  else .frame (wordBytes w (frameLength (BitVec.ofNat 8 w)))

/-- The instruction the decoder reads from a word numbered as spec/opcode_table.json numbers it. -/
def decodeTableWord (nbits w : Nat) : Option Instr :=
  match decode (tableRequest nbits w) with
  | .ok i => some i
  | .error _ => none

end Sys2Proof
end

