-- ==== Sys2Proof/Machine/State.lean ====
section
/-! DEFINITION. The state of the block, whole, as plain data (spec/10_state.md R20 to R65): the controller's holders,
the target's registers and hidden holders, the lines; beside them the environment's script, the parameters and the
host's queue. The reasons a step can stop. The state right after the controller reset
(spec/70_reset_and_hazards.md R360 to R363). -/

namespace Sys2Proof.Machine

/-- A mirror slot: `absent` or a value of the register's width, and the stale mark (R42, R43). -/
structure Slot (w : Nat) where
  value : Option (BitVec w)
  stale : Bool
deriving DecidableEq, Repr, Inhabited

/-- A slot's value after the controller reset: absent, not stale (R362). -/
def Slot.absent {w : Nat} : Slot w := ⟨none, false⟩

/-- The configuration record, after normalisation (R45). -/
structure Cfg where
  measMode     : Nat
  forceCal     : Bool
  trigFalling  : Bool
  startFalling : Bool
  stopFalling  : Bool
  calPeriods   : Nat
  avgCycles    : Nat
  numStop      : Nat
  stopMask     : Half
  overflow     : Half
deriving DecidableEq, Repr

/-- The power state (R47). -/
inductive PState where
  | off | on | configured
deriving DecidableEq, Repr, Inhabited

/-- The measurement state (R48). -/
inductive MState where
  | idle | armedWaitingTrigger | triggerSeen | waitingInterrupt
  | success (pulses : Nat) | timedOut | protocolError
deriving DecidableEq, Repr, Inhabited

/-- The outcome of a MEASURE: a pulse count or one of the five per-measurement errors (R53, R310). -/
inductive MeasOutcome where
  | success (pulses : Nat)
  | noCalibration
  | interruptTimeout
  | triggerFallTimeout
  | triggerRiseTimeout
  | triggerPolarity
deriving DecidableEq, Repr

/-- The two fatal errors (R54, R310). -/
inductive FatalError where
  | configurationWriteFailure
  | busUnavailable
deriving DecidableEq, Repr

/-- The five time-of-flight slots; `none` is `absent` (R51). -/
structure Tofs where
  t1 : Option Rat
  t2 : Option Rat
  t3 : Option Rat
  t4 : Option Rat
  t5 : Option Rat
deriving DecidableEq, Repr, Inhabited

/-- The four deltas between consecutive slots; `none` is `absent` (R52). -/
structure Deltas where
  d1 : Option Rat
  d2 : Option Rat
  d3 : Option Rat
  d4 : Option Rat
deriving DecidableEq, Repr, Inhabited

/-- The results of a COMPUTE_TOFS as the host receives them, in the number system FLOAT names (R304; log entry 29). -/
structure Delivery where
  calCount : Option Rat
  normLsb  : Option Rat
  tof      : Tofs
  delta    : Deltas
deriving DecidableEq, Repr, Inhabited

/-- Where the target is in a measurement (R260 to R264). `busy` is every phase but `idle` (log entry 13). -/
inductive Phase where
  /-- No measurement in flight. -/
  | idle
  /-- Armed; TRIG not yet driven active (R260). -/
  | armed
  /-- Armed; TRIG active: ready (R260). -/
  | ready
  /-- A START edge was accepted; stops are being captured (R261, R262). -/
  | started
  /-- The last configured stop was captured or a counter overflowed: the target calibrates, if it does, and writes what
  the measurement leaves, before it drives INT (R101, R263, R264; log entry 33). -/
  | ending
deriving DecidableEq, Repr, Inhabited

/-- The target: its registers and hidden holders (R20, R22, R60, R61, R63, R260 to R267). -/
structure Target where
  r8        : File8 Byte
  r24       : File24 Word24
  /-- The result registers as they were before the last arming: what a read while busy may still see (R101, U9). -/
  old24     : File24 Word24
  /-- The values the measurement in flight writes, drawn when it is armed or disturbed (R266, U8). -/
  new24     : File24 Word24
  /-- The auto-increment pointer; present only inside a transfer (R60). -/
  ap        : Option Addr
  phase     : Phase
  wedged    : Bool
  /-- TRIG's level while wedged (R267). -/
  stuckTrig : Bool
  /-- INT's level while wedged (R267). -/
  stuckInt  : Bool
  /-- The clock reading at the accepted START edge: the clock counter counts from it (R261, R337). -/
  startTime : Rat
  /-- The coarse counter (R337). -/
  coarse    : Nat
  /-- The status bits that the measurement in flight has raised and that INT_STATUS gets when its end is done, before INT
  is driven: a read may see each of them earlier (R34, R101; log entries 18 and 41). -/
  owed      : Byte
  /-- INT_STATUS as it was before the last arming: what a read while busy may still see (R101; log entry 41). -/
  oldStatus : Byte
  /-- The measurement that is ending was ended by an overflow (R264). -/
  overrun   : Bool
  /-- Stops captured in the current cycle (R262). -/
  captured  : Nat
  /-- Measurement cycles completed of the averaging count (R386). -/
  cycle     : Nat
  /-- INT stays idle whatever the status bits: from a target reset to the next arming (R361), and from a completion or
  overflow whose interrupt was lost (R265). -/
  intSilent : Bool
  /-- A configuration register was written while the measurement was in flight (R102). -/
  disturbed : Bool
deriving DecidableEq, Repr

/-- `busy` (R61). -/
def Target.busy (t : Target) : Bool := t.phase != .idle

/-- The lines that are stored: the four outputs and side 2's two inputs. TRIG1 and INT1 are computed from the
target, which drives them (R56, R57). -/
structure Lines where
  enable    : Bool
  oscEnable : Bool
  start     : Bool
  stop      : Bool
  trig2     : Bool
  int2      : Bool
deriving DecidableEq, Repr, Inhabited

/-- Everything outside the controller: the lines, the target, the monotonic clock (R335), the environment's coming
turns, and how many turns were taken after the script's end. -/
structure World where
  lines  : Lines
  target : Target
  /-- The clock reading at which ENABLE went low (R372). -/
  lowSince : Rat
  /-- The target as it was when ENABLE went low: it is back if ENABLE rises too early to have reset it (R372). -/
  shadow : Target
  time   : Rat
  script : List Turn
  draws  : Nat
deriving DecidableEq, Repr

/-- The texts `warn` logs (R10). Those with no comment are CONFIGURE's and SET_CLOCK_SPEED's (R193, R203 to R209). -/
inductive Warning where
  | speedClamped | aboveRatedMax | aboveCeiling
  /-- A pin is unassigned and its feature skipped (R56, R195). -/
  | unassigned (role : PinRole)
  | calPeriodsBelow | calPeriodsAbove | avgCyclesBelow | avgCyclesAbove
  | badMeasMode | badNumStop | stopMaskClamped | overflowClamped | timeoutClamped | overflowRaised
deriving DecidableEq, Repr

/-- What an operation did, as bus, lines and log show it, in order (the model's own; log entry 12). -/
inductive Observation where
  /-- A read frame: the bytes sent, and as many received (R94). -/
  | frame (tx rx : List Byte)
  /-- A write frame: the bytes sent. As many are received, and ignored (R99). -/
  | sent (tx : List Byte)
  /-- An output line was driven. -/
  | drive (role : PinRole) (level : Bool)
  /-- `mstate` moved (R231). -/
  | moved (m : MState)
  /-- `pstate` moved (R190). -/
  | power (p : PState)
  /-- `warn` (R10). -/
  | warned (w : Warning)
  /-- A per-measurement error was logged. R327 leaves open which registers are logged with it: here its name only
  (DESIGN CHOICE, log entry 43). -/
  | reported (o : MeasOutcome)
  /-- A fatal error was logged, its name only, as above (R327; DESIGN CHOICE, log entry 43). -/
  | failed (e : FatalError)
  /-- The address and value of a write that never verified (R316), the one thing logged with it (log entry 43). -/
  | unverified (a : Addr) (v : Nat)
deriving DecidableEq, Repr

/-- What an operation yields to the host (R148; log entry 12). -/
inductive Yield where
  | nothing
  | byte (v : Byte)
  | half (v : Half)
  | word (v : Word24)
  | block8 (v : File8 Byte)
  | block24 (v : File24 Word24)
  | speed (q : Rat)
  | outcome (o : MeasOutcome)
  | pulses (n : Nat)
  | failed (e : FatalError)
deriving DecidableEq, Repr

/-- A write that a write-verify loop repeats until it reads back (R198, R199). -/
inductive VerifiedWrite where
  | byte (r : Reg8) (v : Byte)
  | pair (p : Pair) (v : Half)
deriving DecidableEq, Repr

/-- The operation a list of verified writes belongs to (R202, R212, R232, R257). -/
inductive WriteOp where
  | configure | configureRetain | hardRecover | measure
deriving DecidableEq, Repr, Inhabited

/-- An operation that goes on in the next step: its writes that are not verified yet, the first of which the bus has not
let through so far (R200, U17; log entry 11). -/
structure Pending where
  op     : WriteOp
  writes : List VerifiedWrite
deriving DecidableEq, Repr

/-- Why a step can stop with a fault: for no reason. The spec's errors are outcomes and the fatal latch (R310, R326,
R328), both of them next states, and a write-verify loop that never ends goes on step by step (R200; log entry 11). -/
inductive Fault where
deriving DecidableEq, Repr

/-- Why a step can be refused: the spec gives the request no meaning (R12). All are safe: no claim about a run can
rest on one. -/
inductive Refusal where
  /-- Raised by exec's own arm for an instruction with no meaning yet; none is left. -/
  | notModelled (mnemonic : String)
  /-- Raised by step: the request names no instruction (R140 to R143, R148). -/
  | undecodable (e : DecodeError)
  /-- Raised by every operation once `fatal` is latched (R54, R328). -/
  | fatalLatched
  /-- Raised by every operation but OPEN while the bus is not open (R190). -/
  | busNotOpen
  /-- Raised by OPEN while the bus is open (R191). -/
  | busAlreadyOpen
  /-- Raised by every operation while `mstate` is not Idle (R190). -/
  | notIdle
  /-- Raised by every operation while an earlier one goes on (R334). -/
  | operationInProgress
  /-- Raised by an operation whose row of R190 has no entry for the power state. -/
  | wrongPowerState
  /-- Raised by MEASURE, CONFIGURE_RETAIN, HARD_RECOVER and COMPUTE_TOFS while `cfg` or `cal_periods` is unset
  (R212, R281). -/
  | cfgUnset
  /-- Raised by the same four when a mirror slot they read is absent, or stale where a stale one may not be read
  (R43, R212, R230, R281). -/
  | mirrorUnusable
  /-- Raised by COMPUTE_TOFS, also inside MEASURE, when the mirror disagrees with `cfg` on mode or averaging
  (R282). -/
  | mirrorDisagrees
  /-- Raised by SET_CLOCK_SPEED for a request that is not positive (R193, U25). -/
  | speedNotPositive
  /-- Raised by CONFIGURE for a stop mask of 0xFFFF (R208, U26). -/
  | stopMaskTooLarge
  /-- Raised by REG_WRITE for a 24-bit register (R24, R171, U2). -/
  | resultWrite
  /-- Raised by REG_WRITE for a value wider than the register (R129). -/
  | valueTooWide
  /-- Raised by REG_WRITE for a reserved field code (R144, U4). -/
  | reservedCode
  /-- Raised by the reserved host-operation code (R148, U19). -/
  | reservedHop
deriving DecidableEq, Repr

/-- The state of the block. -/
structure State where
  /-- The mirror, 8-bit registers (R42). -/
  mirror8    : File8 (Slot 8)
  /-- The mirror, 24-bit registers (R42). -/
  mirror24   : File24 (Slot 24)
  /-- The synthesized 16-bit mirror slots (R44). -/
  mirror16   : FilePair (Slot 16)
  /-- `cfg`; `none` is `unset` (R45). -/
  cfg        : Option Cfg
  /-- `pstate` (R47). -/
  pstate     : PState
  /-- `mstate` (R48). -/
  mstate     : MState
  /-- `cal_periods`; `none` is `unset` (R49). -/
  calPeriods : Option Nat
  /-- `cal_count`; `none` is `unset` (R49). -/
  calCount   : Option Rat
  /-- `norm_lsb`; `none` is `unset` (R50). -/
  normLsb    : Option Rat
  /-- `tof[1..5]` (R51). -/
  tof        : Tofs
  /-- `delta[1..4]` (R52). -/
  delta      : Deltas
  /-- `pulse_count` (R53). -/
  pulseCount : Nat
  /-- The four latches above as they are delivered (R7, R304; log entry 29). -/
  delivered  : Delivery
  /-- `outcome`; `none` is `unset` (R53). -/
  outcome    : Option MeasOutcome
  /-- `fatal` (R54). -/
  fatal      : Option FatalError
  /-- `bus_open` (R55). -/
  busOpen    : Bool
  /-- `bus_speed`; `none` is `unset` (R55). -/
  busSpeed   : Option Rat
  /-- The operation that goes on in the next step; `none` between operations (R200; log entry 11). -/
  pending    : Option Pending
  /-- The lines, the target and the environment. -/
  world      : World
  /-- The parameters of R7; no step writes them (R365; log entry 3). -/
  params     : Params
  /-- The host's queue of requests (R3a; log entry 10). -/
  requests   : List Request
  /-- What the last operation yielded (log entry 12). -/
  result     : Yield
  /-- What the last operation did on bus, lines and log (log entry 12). -/
  log        : List Observation
deriving DecidableEq, Repr

/-- The target in reset: every register at RESET_REGS, not busy, not wedged, TRIG and INT idle (R361; log entry 21). -/
def Target.inReset (p : Params) : Target where
  r8        := p.reset8
  r24       := p.reset24
  old24     := p.reset24
  new24     := p.reset24
  ap        := none
  phase     := .idle
  wedged    := false
  stuckTrig := false
  stuckInt  := false
  startTime := 0
  coarse    := 0
  owed      := 0x00#8
  oldStatus := p.reset8.intStatus
  overrun   := false
  captured  := 0
  cycle     := 0
  intSilent := true
  disturbed := false

/-- The world at the controller reset: the target as if just reset and every stored line low (R363 leaves both
arbitrary; log entries 6, 7, 29), no turn scripted (log entry 2). -/
def World.atReset (p : Params) : World where
  lines  := ⟨false, false, false, false, false, false⟩
  target := Target.inReset p
  lowSince := 0
  shadow := Target.inReset p
  time   := 0
  script := []
  draws  := 0

/-- The controller right after its reset, with parameters `p` (R362). -/
def State.resetWith (p : Params) : State where
  mirror8    := File8.fill Slot.absent
  mirror24   := File24.fill Slot.absent
  mirror16   := FilePair.fill Slot.absent
  cfg        := none
  pstate     := .off
  mstate     := .idle
  calPeriods := none
  calCount   := none
  normLsb    := none
  tof        := ⟨none, none, none, none, none⟩
  delta      := ⟨none, none, none, none⟩
  pulseCount := 0
  delivered  := ⟨none, none, ⟨none, none, none, none, none⟩, ⟨none, none, none, none⟩⟩
  outcome    := none
  fatal      := none
  busOpen    := false
  busSpeed   := none
  pending    := none
  world      := World.atReset p
  params     := p
  requests   := []
  result     := .nothing
  log        := []

/-- The machine right after reset (R362, R363). -/
def State.reset : State := State.resetWith defaultParams

end Sys2Proof.Machine
end

