-- ==== Sys2Proof/Machine/Target.lean ====
section
/-! DEFINITION. The target during a measurement: arming, START and STOP edges, completion, overflow, the wedge, and
the levels it drives on TRIG and INT (spec/42_measurement.md R260 to R268; spec/60_exceptions.md R319, R320, R337). -/

namespace Sys2Proof.Machine

/-- CLOCK_CNTR_OVF (R38). -/
def Target.clockOvf (t : Target) : Half := joinHalf t.r8.clockOvfH t.r8.clockOvfL

/-- COARSE_CNTR_OVF (R37). -/
def Target.coarseOvf (t : Target) : Half := joinHalf t.r8.coarseOvfH t.r8.coarseOvfL

/-- CLOCK_CNTR_STOP_MASK (R39). -/
def Target.stopMask (t : Target) : Half := joinHalf t.r8.stopMaskH t.r8.stopMaskL

/-- The stop count of CONFIG2.NUM_STOP (R33). -/
def Target.numStop (L : Layout) (t : Target) : Nat := stopsOfCode (stopCode L t.r8.config2)

/-- The averaging-cycle count of CONFIG2.AVG_CYCLES (R33). -/
def Target.avgCycles (L : Layout) (t : Target) : Nat := cyclesOfCode (avgCode L t.r8.config2)

/-- The clock counter: whole reference-clock periods since the accepted START (R261, R337; log entry 18). -/
def Target.clockCount (p : Params) (now : Rat) (t : Target) : Nat :=
  ((now - t.startTime) / p.clockPeriod).floor.toNat

/-- INT_STATUS has a set bit that INT_MASK enables (R320). -/
def Target.intPending (L : Layout) (t : Target) : Bool := (t.r8.intStatus &&& enabledSources L t.r8.intMask) != 0#8

/-- The INT level: INT_ACTIVE while a status bit is enabled, unless INT is silent, in reset or lost; stuck while wedged
(R265, R267, R268, R320, R361). -/
def Target.intLevel (p : Params) (t : Target) : Bool :=
  if t.wedged then t.stuckInt
  else if t.intPending p.layout && !t.intSilent then p.intActive
  else !p.intActive

/-- The TRIG level: active while the target is ready, the polarity CONFIG1.TRIGG_EDGE selects; stuck while wedged
(R57, R260, R261, R267). -/
def Target.trigLevel (L : Layout) (t : Target) : Bool :=
  if t.wedged then t.stuckTrig
  else (t.phase == .ready) != trigEdgeBit L t.r8.config1

/-- A fresh arming: busy, every result register and INT_STATUS zero; the environment draws the values the measurement
will write (R260, R266). What R101's "old values" are for it is what the registers hold at the arming write. Where it
restarts a busy target (U7), that is what the abandoned measurement left in the fields, the zeros of its own arming and
the status bits set so far: values of it that had landed, and those from before its arming, can no longer be read (DESIGN
CHOICE, log entry 14). -/
def Target.freshArm (turn : Turn) (t : Target) : Target :=
  { t with
    r8 := { t.r8 with intStatus := 0x00#8 }
    r24 := File24.fill 0x000000#24
    old24 := t.r24
    new24 := turn.results
    phase := .armed
    coarse := 0
    owed := 0x00#8
    oldStatus := t.r8.intStatus
    overrun := false
    captured := 0
    cycle := 0
    intSilent := false
    disturbed := false }

/-- The target wedges with TRIG and INT stuck at these levels; already stuck levels stay (R63, R267). -/
def Target.wedge (trig int : Bool) (t : Target) : Target :=
  if t.wedged then t else { t with wedged := true, stuckTrig := trig, stuckInt := int }

/-- `target_arm()`: nothing while wedged; a draw of three effects while busy (U7); else a fresh arming (R260, R380). -/
def Target.arm (turn : Turn) (t : Target) : Target :=
  if t.wedged then t
  else if t.busy then
    match turn.rearm with
    | .ignored => t
    | .restarts => t.freshArm turn
    | .wedges => t.wedge turn.stuckTrig turn.stuckInt
  else t.freshArm turn

/-- `new` where `write` holds, else `old`. -/
def pick (write : Bool) (new old : Word24) : Word24 := if write then new else old

/-- The result registers after a measurement in which `n` stops were captured: mode 1 fills TIME1 to TIMEn, mode 2
TIME1 and, for each stop, the next TIME and its CLOCK_COUNT; the calibration registers if a calibration ran. A
completion writes besides, in mode 1, the registers that are no stop slot of the mode. Stop slots not captured keep
their values (R262 to R264, R266, R286; log entry 39). Of the registers that are no stop slots of the mode R264 does not say
whether an overflow writes them: here it writes TIME1 of mode 2, with any value, and not TIME6 and CLOCK_COUNT1 to
CLOCK_COUNT5 of mode 1, which keep 0 (DESIGN CHOICE, log entry 39). -/
def resultFile (mode2 completed calibrated : Bool) (n : Nat) (new old : File24 Word24) : File24 Word24 where
  time1        := pick (mode2 || decide (1 ≤ n)) new.time1 old.time1
  clockCount1  := pick (if mode2 then decide (1 ≤ n) else completed) new.clockCount1 old.clockCount1
  time2        := pick (decide ((if mode2 then 1 else 2) ≤ n)) new.time2 old.time2
  clockCount2  := pick (if mode2 then decide (2 ≤ n) else completed) new.clockCount2 old.clockCount2
  time3        := pick (decide ((if mode2 then 2 else 3) ≤ n)) new.time3 old.time3
  clockCount3  := pick (if mode2 then decide (3 ≤ n) else completed) new.clockCount3 old.clockCount3
  time4        := pick (decide ((if mode2 then 3 else 4) ≤ n)) new.time4 old.time4
  clockCount4  := pick (if mode2 then decide (4 ≤ n) else completed) new.clockCount4 old.clockCount4
  time5        := pick (decide ((if mode2 then 4 else 5) ≤ n)) new.time5 old.time5
  clockCount5  := pick (if mode2 then decide (5 ≤ n) else completed) new.clockCount5 old.clockCount5
  time6        := pick (if mode2 then decide (5 ≤ n) else completed) new.time6 old.time6
  calibration1 := pick calibrated new.calibration1 old.calibration1
  calibration2 := pick calibrated new.calibration2 old.calibration2

/-- The stops captured in the measurement in flight: all of them once a cycle was completed (R262, R386). -/
def Target.stopsSeen (L : Layout) (t : Target) : Nat := if 0 < t.cycle then t.numStop L else t.captured

/-- The measurement ends with all its stops captured (R263). -/
def Target.completes (t : Target) : Bool := t.phase == .ending && !t.overrun

/-- A calibration belongs to the measurement's end: after the last stop, and after an overflow if FORCE_CAL is 1 (R263,
R264). -/
def Target.calibrates (L : Layout) (t : Target) : Bool :=
  t.phase == .ending && (!t.overrun || forceCalBit L t.r8.config1)

/-- The result registers with what the measurement has to write by now: any value in every register when the
configuration was disturbed in flight or MEAS_MODE holds a reserved code (R102, U8; R31; log entries 15 and 27). -/
def Target.endResults (L : Layout) (t : Target) : File24 Word24 :=
  if t.disturbed || decide (2 ≤ (measModeCode L t.r8.config1).toNat) then t.new24
  else resultFile (measModeCode L t.r8.config1 == 1#2) t.completes (t.calibrates L) (t.stopsSeen L) t.new24 t.r24

/-- The values the measurement in flight may have written so far: none before its first START unless it was disturbed,
the captured slots' from then on, all of them once it is ending (R101, R262, R263). -/
def Target.landed (L : Layout) (t : Target) : File24 Word24 :=
  if (t.phase == .armed || t.phase == .ready) && t.cycle == 0 && !t.disturbed then t.r24
  else t.endResults L

/-- What a read sees of a result register: its value, and while busy the one before the arming, zero, or the one the
measurement writes (R88, R101, U9; log entry 14). -/
def Target.readout (L : Layout) (turn : Turn) (t : Target) (r : Reg24) : Word24 :=
  if t.busy then
    match turn.seen.get r with
    | .before => t.old24.get r
    | .held => t.r24.get r
    | .after => (t.landed L).get r
  else t.r24.get r

/-- What a read sees of an 8-bit register: its value, and while busy, before INT is driven for the measurement, any mixture
of old and new in the two registers the target writes. INT_STATUS reads as before the arming, or with each status bit that
the measurement has raised set or not yet; START_MEAS, while the measurement ends, as set or cleared (R30, R101; log entry
41). -/
def Target.readout8 (L : Layout) (turn : Turn) (t : Target) (r : Reg8) : Byte :=
  if t.busy && r == .intStatus then
    if turn.statusOld then t.oldStatus else (t.r8.intStatus ||| t.owed) &&& turn.landed
  else if t.phase == .ending && turn.cleared && r == .config1 then withoutStartMeas L t.r8.config1
  else t.r8.get r

/-- The measurement stops counting and begins to end; `bits` are the status bits it will set. Its writes take effect, in
any order, before INT is driven, so until they are done it is busy and INT as before (R101, R263, R264; log entry 33). -/
def Target.beginEnd (bits : Byte) (overrun : Bool) (t : Target) : Target :=
  { t with phase := .ending, owed := t.owed ||| bits, overrun := overrun }

/-- The end is done: results written, status bits set, START_MEAS cleared, not busy; then INT is driven, unless its
interrupt is lost (R30, R263 to R265). A measurement ends once, so it makes one such draw (log entry 21). -/
def Target.endMeasurement (L : Layout) (turn : Turn) (t : Target) : Target :=
  { t with
    r8 := { t.r8 with
      config1 := withoutStartMeas L t.r8.config1
      intStatus := t.r8.intStatus ||| t.owed }
    r24 := t.endResults L
    phase := .idle
    owed := 0x00#8
    intSilent := turn.intLost
    disturbed := false }

/-- An edge on the START input: the active one begins the measurement of an armed target (R261), also before the target
has driven TRIG active. No rule says what TRIG does then: here it stays idle in that measurement (DESIGN CHOICE, log entry
40). -/
def Target.startEdge (L : Layout) (now : Rat) (rising : Bool) (t : Target) : Target :=
  if (t.phase == .armed || t.phase == .ready) && rising != startEdgeBit L t.r8.config1 then
    { t with
      r8 := { t.r8 with intStatus := t.r8.intStatus ||| statusStarted L }
      phase := .started
      startTime := now
      coarse := 0
      captured := 0 }
  else t

/-- One stop is captured: with the last one of the last cycle the measurement begins to end, after that of an earlier cycle
it waits for the next START (R262, R263, R386). -/
def Target.capture (L : Layout) (t : Target) : Target :=
  if t.captured + 1 < t.numStop L then { t with captured := t.captured + 1 }
  else if t.cycle + 1 < t.avgCycles L then { t with captured := 0, cycle := t.cycle + 1, phase := .armed }
  else { t with captured := t.captured + 1 }.beginEnd (statusNewMeas L ||| statusComplete L) false

/-- An edge on the STOP input: the active one is captured once the clock counter has passed the stop mask; at the
very count of the mask a draw decides (R262; log entry 16). -/
def Target.stopEdge (p : Params) (now : Rat) (rising atMask : Bool) (t : Target) : Target :=
  if t.phase == .started && rising != stopEdgeBit p.layout t.r8.config1 &&
      (decide (t.stopMask.toNat < t.clockCount p now) ||
        (decide (t.stopMask.toNat = t.clockCount p now) && atMask)) then
    t.capture p.layout
  else t

/-- The clock counter's overflow: it ends a started measurement that still misses a stop (R264). What is left of the end,
with a calibration only if FORCE_CAL is 1, takes an unspecified time, as after the last stop (R101; DEDUCED, log entry 33).
While the measurement ends neither this counter nor the coarse one counts on: no rule says whether they do while the
calibration runs (DESIGN CHOICE, log entry 18). -/
def Target.checkClock (p : Params) (now : Rat) (t : Target) : Target :=
  if t.phase == .started && decide (t.clockOvf.toNat ≤ t.clockCount p now) then
    t.beginEnd (statusClockOvf p.layout) true
  else t

/-- The count at which the coarse counter has reached COARSE_CNTR_OVF: the register's value, and the first tick where it
holds 0, since no rule says where the counter starts and so whether a limit of 0 is reached at START (DESIGN CHOICE, log
entry 18). -/
def Target.coarseLimit (t : Target) : Nat := max 1 t.coarseOvf.toNat

/-- The coarse counter has reached its limit in a measurement that goes on. COARSE_CNTR_OVF_INT is set at once (R34),
unless that would drive INT: then it is set when the measurement ends, because its results are complete before INT is
driven (R101, R320; DEDUCED, log entry 18). -/
def Target.raiseCoarse (p : Params) (t : Target) : Target :=
  let raised := { t with r8 := { t.r8 with intStatus := t.r8.intStatus ||| statusCoarseOvf p.layout } }
  if raised.intLevel p = t.intLevel p then raised else { t with owed := t.owed ||| statusCoarseOvf p.layout }

/-- The coarse counter advances, while the measurement still misses a stop (as for the clock counter, log entry 18). Its
limit is looked at when it advances, not at START, so with a limit of 0 stops may come first (DESIGN CHOICE, log entry 18).
Reaching it raises COARSE_CNTR_OVF_INT in every mode (R34, R337), and in mode 1 ends the measurement, as the clock
counter's overflow does (R264). -/
def Target.advanceCoarse (p : Params) (ticks : Nat) (t : Target) : Target :=
  if t.phase == .started then
    let u := { t with coarse := t.coarse + ticks }
    if u.coarse < t.coarseLimit then u
    else if measModeCode p.layout t.r8.config1 == 0#2 then u.beginEnd (statusCoarseOvf p.layout) true
    else if t.coarse < t.coarseLimit then u.raiseCoarse p
    else u
  else t

/-- The end of the measurement is done, the calibration that belongs to it included (R263, R264). A disturbed measurement
may begin to end, as completed, at any time after its START (R102; log entry 15). -/
def Target.complete (L : Layout) (turn : Turn) (t : Target) : Target :=
  if t.phase == .ending then t.endMeasurement L turn
  else if t.disturbed && t.phase == .started then t.beginEnd (statusNewMeas L ||| statusComplete L) false
  else t

/-- What an environment event does to a running target (R260 to R267). -/
def Target.event (p : Params) (turn : Turn) (now : Rat) (e : Event) (t : Target) : Target :=
  match e with
  | .trigReady => if t.phase == .armed then { t with phase := .ready } else t
  | .startEdge rising => t.startEdge p.layout now rising
  | .stopEdge rising => t.stopEdge p now rising turn.atMask
  | .coarse ticks => t.advanceCoarse p ticks
  | .finish => t.complete p.layout turn
  | .wedge trig int => t.wedge trig int

/-- START and STOP edges come from the environment only outside simulate mode (R3d). -/
def Event.isEdge : Event → Bool
  | .startEdge _ => true
  | .stopEdge _ => true
  | .trigReady => false
  | .coarse _ => false
  | .finish => false
  | .wedge _ _ => false

end Sys2Proof.Machine
end

