-- ==== Sys2Proof/Machine/Bus.lean ====
section
/-! DEFINITION. The world outside the controller: the environment's turns and the clock, the lines
(spec/10_state.md R56, R57), the waits (spec/42_measurement.md R235), and `BusTransfer` with `MemRead` and
`MemWrite` (spec/20_memory.md R94 to R97). -/

namespace Sys2Proof.Machine

/-- PINS[role] is assigned (R56). -/
def Pins.has (pins : Pins) : PinRole → Bool
  | .enable => pins.enable
  | .oscEnable => pins.oscEnable
  | .trig1 => pins.trig1
  | .trig2 => pins.trig2
  | .int1 => pins.int1
  | .int2 => pins.int2
  | .start => pins.start
  | .stop => pins.stop

/-- The controller holds the target in reset: ENABLE assigned and low (R57, R361). -/
def World.held (p : Params) (w : World) : Bool := p.pins.enable && !w.lines.enable

/-- A wait that counts as 0 when negative. -/
def nonnegative (dt : Rat) : Rat := if dt < 0 then 0 else dt

/-- The clock reading after a wait of `dt` from `now`, held at `ceil` where there is one and never below `now`
(R335: non-decreasing). -/
def clockAfter (ceil : Option Rat) (dt now : Rat) : Rat :=
  match ceil with
  | none => now + nonnegative dt
  | some c => if now + nonnegative dt ≤ c then now + nonnegative dt else if now ≤ c then c else now

/-- Time passes; the target's clock counter may overflow in it (R264, R335). -/
def World.elapse (p : Params) (ceil : Option Rat) (dt : Rat) (w : World) : World :=
  let now := clockAfter ceil dt w.time
  { w with time := now, target := w.target.checkClock p now }

/-- An environment event; a target held in reset does not see it, and in simulate mode the environment supplies no
edges (R3d, R361). -/
def World.happen (p : Params) (turn : Turn) (e : Event) (w : World) : World :=
  if w.held p || (p.simulate && e.isEdge) then w
  else { w with target := w.target.event p turn w.time e }

/-- The waits and events of a turn, in order. -/
def World.happenAll (p : Params) (ceil : Option Rat) (turn : Turn) : List (Rat × Event) → World → World
  | [], w => w
  | (dt, e) :: rest, w => World.happenAll p ceil turn rest ((w.elapse p ceil dt).happen p turn e)

/-- The environment acts out one turn. -/
def World.play (p : Params) (ceil : Option Rat) (turn : Turn) (w : World) : World :=
  (World.happenAll p ceil turn turn.before w).elapse p ceil turn.wait

/-- The next turn, the script's, or a free one after its end (log entry 2). -/
def World.takeTurn (w : World) : Turn × World :=
  match w.script with
  | turn :: rest => (turn, { w with script := rest })
  | [] => (Config.turn w.draws, { w with draws := w.draws + 1 })

/-- The environment takes its turn, with the clock held at `ceil` where there is one (R3d, R4). -/
def World.turnUnder (p : Params) (ceil : Option Rat) (w : World) : Turn × World :=
  let (turn, w) := w.takeTurn
  (turn, w.play p ceil turn)

/-- The environment takes its turn before an action of the controller: a transfer, a line read, a line write or a clock
read (R3d, R4). -/
def World.nextTurn (p : Params) (w : World) : Turn × World := w.turnUnder p none

/-- The level of a line (R56, R57, R320). -/
def World.level (p : Params) (w : World) : PinRole → Bool
  | .enable => w.lines.enable
  | .oscEnable => w.lines.oscEnable
  | .start => w.lines.start
  | .stop => w.lines.stop
  | .trig1 => w.target.trigLevel p.layout
  | .int1 => w.target.intLevel p
  | .trig2 => w.lines.trig2
  | .int2 => w.lines.int2

/-- ENABLE has been low for less than T_RESET_MIN (R372). -/
def World.tooEarly (p : Params) (w : World) : Bool :=
  !w.lines.enable && decide (w.time < w.lowSince + p.tResetMin)

/-- ENABLE goes low: the target is in reset (R57, R361). Since when ENABLE is low, and what the target was before, are
kept for an early release. -/
def World.enableLow (p : Params) (w : World) : World :=
  { w with
    lines := { w.lines with enable := false }
    lowSince := if w.lines.enable || decide (w.time < w.lowSince) then w.time else w.lowSince
    shadow := if w.lines.enable then w.target else w.shadow
    target := Target.inReset p }

/-- ENABLE goes high: the target runs from its reset state; if ENABLE was low too shortly the environment decides whether
it was reset at all (R57, R361, R372; log entry 38). -/
def World.enableHigh (p : Params) (turn : Turn) (w : World) : World :=
  { w with
    lines := { w.lines with enable := true }
    target := if w.tooEarly p && !turn.resets then { w.shadow with ap := none } else w.target }

/-- Drive START: a change of level is an edge at the target's START input (R56, R261; log entry 19). -/
def World.driveStart (p : Params) (level : Bool) (w : World) : World :=
  { w with
    lines := { w.lines with start := level }
    target := if w.held p || level == w.lines.start then w.target else w.target.startEdge p.layout w.time level }

/-- Drive STOP: a change of level is an edge at the target's STOP input (R56, R262; log entry 19). -/
def World.driveStop (p : Params) (turn : Turn) (level : Bool) (w : World) : World :=
  { w with
    lines := { w.lines with stop := level }
    target := if w.held p || level == w.lines.stop then w.target
      else w.target.stopEdge p w.time level turn.atMask }

/-- Drive OSC_ENABLE: high enables the onboard clock (R57). What a low level does to a running target no rule says; in
this model the target's clock counter counts at any level of the line (DESIGN CHOICE, log entry 37). -/
def World.driveOsc (level : Bool) (w : World) : World :=
  { w with lines := { w.lines with oscEnable := level } }

/-- `Line(role) <- level` for an output line; the draws are those of the turn before it (R10). -/
def World.drive (p : Params) (turn : Turn) (role : PinRole) (level : Bool) (w : World) : World :=
  match role with
  | .enable => if level then w.enableHigh p turn else w.enableLow p
  | .oscEnable => w.driveOsc level
  | .start => w.driveStart p level
  | .stop => w.driveStop p turn level
  | .trig1 => w
  | .trig2 => w
  | .int1 => w
  | .int2 => w

/-- `Delay(t)`: the clock is read, and the rest of `t` passes after the environment's turn before the next reading
(R10; log entry 25). -/
def World.delay (p : Params) (t : Rat) (w : World) : World :=
  let w := (w.nextTurn p).2
  let t0 := w.time
  let w := (w.nextTurn p).2
  w.elapse p none (t0 + t - w.time)

/-- What a wait for a line yields (R235). -/
inductive WaitResult where
  | seen
  | timeout
deriving DecidableEq, Repr

/-- The rounds of `WaitLine` from clock reading `t0`, each with a turn of the environment before the line is sampled and
another before the clock is read; in none of them the clock runs past the deadline by more than T_POLL_SLACK. After
`rounds` rounds comes a last one, in which the deadline is reached (R4, R235, R325; log entry 25). -/
def World.poll (p : Params) (role : PinRole) (level : Bool) (d t0 : Rat) : Nat → World → WaitResult × World
  | 0, w =>
    let w := (w.turnUnder p (some (t0 + d + p.tPollSlack))).2
    if w.level p role = level then (.seen, w)
    else
      let w := (w.turnUnder p (some (t0 + d + p.tPollSlack))).2
      (.timeout, w.elapse p none (t0 + d - w.time))
  | rounds + 1, w =>
    let w := (w.turnUnder p (some (t0 + d + p.tPollSlack))).2
    if w.level p role = level then (.seen, w)
    else
      let w := (w.turnUnder p (some (t0 + d + p.tPollSlack))).2
      if t0 + d ≤ w.time then (.timeout, w) else World.poll p role level d t0 rounds w

/-- `WaitLine(role, level, d)`: the first clock reading, then the rounds the script has turns for (R235). -/
def World.waitLine (p : Params) (role : PinRole) (level : Bool) (d : Rat) (w : World) : WaitResult × World :=
  let w := (w.nextTurn p).2
  World.poll p role level d w.time (w.script.length / 2) w

/-- The bytes of the register the pointer stands on, as a read sees it, most significant first (R83, R95). -/
def Target.bytesAtPointer (L : Layout) (turn : Turn) (t : Target) : List Byte :=
  match t.ap with
  | none => []
  | some a =>
    match regOf8 a with
    | some r => [t.readout8 L turn r]
    | none =>
      match regOf24 a with
      | some r => bytes24 (t.readout L turn r)
      | none => []

/-- The pointer moves on by one register if the command's auto-increment bit is set (R60). -/
def Target.movePointer (auto : Bool) (t : Target) : Target :=
  if auto then { t with ap := t.ap.map (· + 1) } else t

/-- The world with no auto-increment pointer: a transfer's does not outlive it (R60). -/
def World.pointerless (w : World) : World := { w with target := { w.target with ap := none } }

/-- `MemRead`'s loop: whole registers until `n` bytes are read (R95); `fuel` is `n`, as every register has a byte. Between
two registers of a bulk read the environment may act (R88; log entry 35). -/
def World.memRead (p : Params) (turn : Turn) (auto : Bool) (n : Nat) :
    List (List (Rat × Event)) → Nat → List Byte → World → List Byte × World
  | _, 0, out, w => (out, w)
  | gaps, fuel + 1, out, w =>
    if n ≤ out.length then (out, w)
    else
      let out := out ++ w.target.bytesAtPointer p.layout turn
      let w := { w with target := w.target.movePointer auto }
      World.memRead p turn auto n gaps.tail fuel out (w.happenAll p none turn (gaps.headD []))

/-- `store(r, b)`: a plain store but for CONFIG1, which may arm, and INT_STATUS, where the bits written as 1 are cleared,
also those the measurement in flight has raised, as far as they have landed (R35; log entry 41). A store to a configuration
register while busy disturbs the measurement in flight, whose results are then other ones (R89, R96, R102, U8). -/
def Target.store (L : Layout) (turn : Turn) (r : Reg8) (b : Byte) (t : Target) : Target :=
  if r = .intStatus then
    { t with
      r8 := { t.r8 with intStatus := clearStatusBits t.r8.intStatus b }
      owed := clearStatusBits t.owed (b &&& turn.landed)
      oldStatus := clearStatusBits t.oldStatus b }
  else
    let t :=
      { t with
        r8 := t.r8.set r b
        new24 := if t.busy then turn.results else t.new24
        disturbed := t.disturbed || t.busy }
    if r = .config1 && startMeasBit L b then t.arm turn else t

/-- `store` at the pointer, which then moves on. -/
def Target.storeAtPointer (L : Layout) (turn : Turn) (auto : Bool) (b : Byte) (t : Target) : Target :=
  match t.ap.bind regOf8 with
  | some r => (t.store L turn r b).movePointer auto
  | none => t

/-- `MemWrite`: the bytes in address order, from the pointer on (R96). -/
def Target.memWrite (L : Layout) (turn : Turn) (auto : Bool) : List Byte → Target → Target
  | [], t => t
  | b :: rest, t => Target.memWrite L turn auto rest (t.storeAtPointer L turn auto b)

/-- The answer to a read of `n` bytes from `a`: byte 0, which is 0x00 on a clean transfer, and the registers' bytes; any
bytes on a corrupt one. Only a bulk read takes long enough for the environment to act inside it (R88, R94, R95, R97,
R99). -/
def World.answer (p : Params) (turn : Turn) (auto : Bool) (a : Addr) (n : Nat) (w : World) : List Byte × World :=
  match turn.noise with
  | .clean =>
    let (rx, w) := World.memRead p turn auto n (if auto && decide (3 ≤ n) then turn.gaps else []) n []
      { w with target := { w.target with ap := some a } }
    (0x00#8 :: rx, w.pointerless)
  | .corrupt => (takeBytes (n + 1) turn.data, w.pointerless)

/-- The target's update for a write of `data` from `a`: the data sent, or any data on a corrupt transfer; the pointer
does not outlive the transfer (R60, R94, R96, R97). -/
def Target.accept (L : Layout) (turn : Turn) (auto : Bool) (a : Addr) (data : List Byte) (t : Target) : Target :=
  let received :=
    match turn.noise with
    | .clean => data
    | .corrupt => takeBytes data.length turn.data
  { Target.memWrite L turn auto received { t with ap := some a } with ap := none }

/-- What the controller receives during a write of `n` bytes: as many bytes as it sends, the first of them 0x00 on a clean
transfer, the rest any (R99, U32). -/
def echoOf (turn : Turn) (n : Nat) : List Byte :=
  match turn.noise with
  | .clean => 0x00#8 :: takeBytes n turn.echo
  | .corrupt => takeBytes (n + 1) turn.echo

/-- `BusTransfer(tx) -> rx`: the environment's turn, then one transfer, indivisible for the controller; `rx` is as long as
`tx` (R10, R88, R94, R100). -/
def World.transfer (p : Params) (tx : List Byte) (w : World) : List Byte × World :=
  let (turn, w) := w.nextTurn p
  match tx with
  | [] => ([], w)
  | c :: data =>
    if commandWrite c then
      (echoOf turn data.length,
        { w with target := w.target.accept p.layout turn (commandAuto c) (commandAddr c) data })
    else w.answer p turn (commandAuto c) (commandAddr c) data.length

end Sys2Proof.Machine
end

