-- ==== Sys2Proof/Machine/Rounding.lean ====
section
/-! DEFINITION. FLOAT: the numbers results are delivered in, exact rationals or IEEE 754 binary64 (spec/00_scope.md R7;
spec/43_calibration.md R304). A binary64 number is a significand of 53 bits times a power of two. As R304 says that no
subnormal, infinity or NaN can arise, the exponent has no bound here (log entry 29). -/

namespace Sys2Proof.Machine

/-- The larger of two rationals. -/
def larger (a b : Rat) : Rat := if a < b then b else a

/-- `2 ^ e`, for any integer `e`. -/
def pow2 (e : Int) : Rat := if 0 ≤ e then ((2 ^ e.toNat : Nat) : Rat) else 1 / ((2 ^ (-e).toNat : Nat) : Rat)

/-- The power of two that brings `q`, or `q` halved, among the 53-bit significands. -/
def scaleGuess (q : Rat) : Int := 52 + (q.den.log2 : Int) - (q.num.natAbs.log2 : Int)

/-- The exponent `k` for which the absolute value of `q * 2 ^ k` is at least `2 ^ 52` and below `2 ^ 53`. -/
def scaleOf (q : Rat) : Int :=
  if larger q (-q) * pow2 (scaleGuess q) < ((2 ^ 52 : Nat) : Rat) then scaleGuess q + 1 else scaleGuess q

/-- The nearer of `f` and `f + 1` to `x`, where `f` is the floor of `x`; `tie` chooses between the two at equal
distance. -/
def nearest (tie : Bool) (x : Rat) : Int :=
  if x - x.floor < 1 / 2 then x.floor
  else if 1 / 2 < x - x.floor then x.floor + 1
  else if tie then x.floor + 1 else x.floor

/-- An exact number rounded to an integer, in a rounding direction of IEEE 754. -/
def roundInt (r : Rounding) (x : Rat) : Int :=
  match r with
  | .nearestEven => nearest (x.floor % 2 == 1) x
  | .nearestAway => nearest (decide (0 ≤ x)) x
  | .upward => x.ceil
  | .downward => x.floor
  | .towardZero => if 0 ≤ x then x.floor else x.ceil

/-- One binary64 operation: its exact result rounded to 53 significant bits (R304). -/
def roundBinary64 (r : Rounding) (q : Rat) : Rat :=
  if q = 0 then 0 else (roundInt r (q * pow2 (scaleOf q)) : Rat) * pow2 (-scaleOf q)

/-- What one arithmetic operation gives in the number system, for its exact result (R7, R304). -/
def NumberSystem.round (f : NumberSystem) (q : Rat) : Rat :=
  match f with
  | .exact => q
  | .binary64 r => roundBinary64 r q

end Sys2Proof.Machine
end

