-- ==== Sys2Proof/Machine/Operands.lean ====
section
/-! DEFINITION. The operands of CONFIGURE: normalisation of a request (spec/41_power_config.md R203 to R209;
spec/30_encoding.md R135), the CONFIG1 and CONFIG2 values (R131, R132); the speed of SET_CLOCK_SPEED (R193); the
value of REG_WRITE (R144, R171). -/

namespace Sys2Proof.Machine

/-- Calibration periods, rounded up to a tier; above 40 the top tier, below 1 the bottom one, each with a warning
(R203, conflict C1). -/
def normCalPeriods (r : Int) : Nat × List Warning :=
  if r ≤ 0 then (2, [.calPeriodsBelow])
  else if r ≤ 2 then (2, [])
  else if r ≤ 10 then (10, [])
  else if r ≤ 20 then (20, [])
  else if r ≤ 40 then (40, [])
  else (40, [.calPeriodsAbove])

/-- Averaging cycles, rounded up to a power of two and clamped to 1 to 128 with a warning (R204). -/
def normAvgCycles (a : Int) : Nat × List Warning :=
  if a < 1 then (1, [.avgCyclesBelow])
  else if a ≤ 1 then (1, [])
  else if a ≤ 2 then (2, [])
  else if a ≤ 4 then (4, [])
  else if a ≤ 8 then (8, [])
  else if a ≤ 16 then (16, [])
  else if a ≤ 32 then (32, [])
  else if a ≤ 64 then (64, [])
  else if a ≤ 128 then (128, [])
  else (128, [.avgCyclesAbove])

/-- Measurement mode: 1 and 2 pass, anything else becomes 1 with a warning (R205). -/
def normMeasMode (m : Int) : Nat × List Warning :=
  if m = 1 then (1, []) else if m = 2 then (2, []) else (1, [.badMeasMode])

/-- Stop count: 1 to 5 pass, anything else becomes 1 with a warning (R206). -/
def normNumStop (n : Int) : Nat × List Warning :=
  if 1 ≤ n ∧ n ≤ 5 then (n.toNat, []) else (1, [.badNumStop])

/-- A request brought into 16 bits: below 0 becomes 0, above 0xFFFF becomes 0xFFFF, each with the warning `w`
(R135, R208). -/
def clamp16 (w : Warning) (n : Int) : Nat × List Warning :=
  if n < 0 then (0, [w]) else if 65535 < n then (65535, [w]) else (n.toNat, [])

/-- The overflow request as a count: a time is divided by CLOCK_PERIOD and rounded up (R135, R208). -/
def overflowCount (clockPeriod : Rat) : OverflowRequest → Nat × List Warning
  | .count n => clamp16 .overflowClamped n
  | .timeout t => clamp16 .timeoutClamped (t / clockPeriod).ceil

/-- The overflow, raised above the stop mask where it does not exceed it (R209, R40). -/
def raiseOverflow (mask ovf : Nat) : Nat × List Warning :=
  if ovf ≤ mask then (mask + 1, [.overflowRaised]) else (ovf, [])

/-- The request is one CONFIGURE refuses: its stop mask, brought into 16 bits, is 0xFFFF (R208). -/
def stopMaskRefused (q : ConfigRequest) : Bool := (clamp16 .stopMaskClamped q.stopMask).1 == 65535

/-- `normalise(request)`: the configuration record and the warnings logged (R202 to R209). -/
def normalise (p : Params) (q : ConfigRequest) : Cfg × List Warning :=
  let mode := normMeasMode q.measMode
  let cal := normCalPeriods q.calPeriods
  let avg := normAvgCycles q.avgCycles
  let stops := normNumStop q.numStop
  let mask := clamp16 .stopMaskClamped q.stopMask
  let count := overflowCount p.clockPeriod q.overflow
  let ovf := raiseOverflow mask.1 count.1
  ({ measMode := mode.1
     forceCal := q.forceCal
     trigFalling := q.trigFalling
     startFalling := q.startFalling
     stopFalling := q.stopFalling
     calPeriods := cal.1
     avgCycles := avg.1
     numStop := stops.1
     stopMask := BitVec.ofNat 16 mask.1
     overflow := BitVec.ofNat 16 ovf.1 },
   mode.2 ++ cal.2 ++ avg.2 ++ stops.2 ++ mask.2 ++ count.2 ++ ovf.2)

/-- The configuration record holds legal values only (R45). -/
def Cfg.legal (c : Cfg) : Bool :=
  (c.measMode == 1 || c.measMode == 2) &&
  (c.calPeriods == 2 || c.calPeriods == 10 || c.calPeriods == 20 || c.calPeriods == 40) &&
  (c.avgCycles == 1 || c.avgCycles == 2 || c.avgCycles == 4 || c.avgCycles == 8 || c.avgCycles == 16 ||
    c.avgCycles == 32 || c.avgCycles == 64 || c.avgCycles == 128) &&
  decide (1 ≤ c.numStop) && decide (c.numStop ≤ 5) && decide (c.stopMask.toNat < c.overflow.toNat)

/-- A bool as bit `k` of a byte. -/
def bitAt (k : Fin 8) (b : Bool) : Byte := if b then bitMask k else 0#8

/-- MEAS_MODE's code: mode − 1 (R31). -/
def measModeOf (mode : Nat) : BitVec 2 := if mode = 1 then 0#2 else 1#2

/-- CALIBRATION2_PERIODS's code: the tiers in ascending order (R33). -/
def tierOf (periods : Nat) : BitVec 2 :=
  if periods ≤ 2 then 0#2 else if periods ≤ 10 then 1#2 else if periods ≤ 20 then 2#2 else 3#2

/-- AVG_CYCLES's code: `log2` of the cycle count (R33). -/
def logAvg (cycles : Nat) : BitVec 3 :=
  if cycles ≤ 1 then 0#3 else if cycles ≤ 2 then 1#3 else if cycles ≤ 4 then 2#3 else if cycles ≤ 8 then 3#3
  else if cycles ≤ 16 then 4#3 else if cycles ≤ 32 then 5#3 else if cycles ≤ 64 then 6#3 else 7#3

/-- The CONFIG1 value CONFIGURE writes (R131). -/
def config1Of (L : Layout) (c : Cfg) : Byte :=
  bitAt L.forceCal c.forceCal ||| bitAt L.trigEdge c.trigFalling ||| bitAt L.stopEdge c.stopFalling |||
    bitAt L.startEdge c.startFalling ||| ((measModeOf c.measMode).setWidth 8 <<< L.measMode.val)

/-- The CONFIG2 value CONFIGURE writes (R132). -/
def config2Of (L : Layout) (c : Cfg) : Byte :=
  ((tierOf c.calPeriods).setWidth 8 <<< L.tier.val) ||| ((logAvg c.avgCycles).setWidth 8 <<< L.avg.val) |||
    ((BitVec.ofNat 3 (c.numStop - 1)).setWidth 8 <<< L.numStop.val)

/-- The smaller of two rationals. -/
def smaller (a b : Rat) : Rat := if b < a then b else a

/-- The speed SET_CLOCK_SPEED sets without `force`: clamped to [BUS_MIN_HZ, BUS_RATED_MAX_HZ] (R193). -/
def clampedSpeed (p : Params) (requested : Rat) : Rat := smaller (larger requested p.busMin) p.busRated

/-- The speed SET_CLOCK_SPEED sets, and the warnings it logs (R193, conflict C2). -/
def chosenSpeed (p : Params) (requested : Rat) (force : Bool) : Rat × List Warning :=
  if force then
    if p.busCeiling < requested then (p.busCeiling, [.aboveCeiling])
    else if p.busRated < requested then (requested, [.aboveRatedMax])
    else (requested, [])
  else (clampedSpeed p requested, if clampedSpeed p requested = requested then [] else [.speedClamped])

/-- The byte REG_WRITE sends to an 8-bit register: bits with no field, and PARITY_EN of CONFIG1, are written 0 (R41,
R144, R171; log entries 24 and 36). -/
def regWriteByte (L : Layout) (r : Reg8) (v : Nat) : Byte := sentByte L r (BitVec.ofNat 8 v)

/-- The idle level of TRIG under a configuration (R57). -/
def trigIdle (c : Cfg) : Bool := c.trigFalling

/-- The active level of TRIG under a configuration (R57). -/
def trigActive (c : Cfg) : Bool := !c.trigFalling

/-- The active level of the START output under a configuration (R57, R245). -/
def startActive (c : Cfg) : Bool := !c.startFalling

/-- The active level of the STOP output under a configuration (R57, R245). -/
def stopActive (c : Cfg) : Bool := !c.stopFalling

/-- The interrupt deadline: `cfg.overflow * CLOCK_PERIOD + T_INT_MARGIN` (R248). -/
def interruptDeadline (p : Params) (c : Cfg) : Rat := (c.overflow.toNat : Rat) * p.clockPeriod + p.tIntMargin

/-- The code of an outcome, by which the host's histogram is indexed (R318). -/
def MeasOutcome.code : MeasOutcome → Nat
  | .success pulses => pulses
  | .noCalibration => 6
  | .interruptTimeout => 7
  | .triggerFallTimeout => 8
  | .triggerRiseTimeout => 9
  | .triggerPolarity => 10

/-- The code of the `fatal` latch (R318). -/
def fatalCode : Option FatalError → Nat
  | none => 0
  | some .configurationWriteFailure => 1
  | some .busUnavailable => 2

end Sys2Proof.Machine
end

