-- ==== Sys2Proof/Machine/Ops.lean ====
section
/-! DEFINITION. The named operations every meaning is made of: how an operation runs and ends, the preconditions
(spec/41_power_config.md R190), the bus transactions as the controller issues them (spec/40_bus_transactions.md), the
mirror (spec/10_state.md R42 to R44), the lines, the power sequence, raising an error (spec/60_exceptions.md R326,
R328), and the verified writes (spec/41_power_config.md R198 to R200). -/

namespace Sys2Proof.Machine

/-- Where an operation stands while it runs. -/
inductive Run where
  /-- It goes on from this state. -/
  | going (s : State)
  /-- It goes no further in this step: an outcome was reported, a fatal error was raised (R326, R328), or its writes go on
  in the next step (R200). -/
  | ended (s : State)
  /-- A part of it is refused, and so is the whole (R12). -/
  | refused (r : Refusal)

/-- Run the next part, unless the run ended. -/
def Run.andThen (r : Run) (next : State → Run) : Run :=
  match r with
  | .going s => next s
  | .ended s => .ended s
  | .refused f => .refused f

/-- What the whole operation answers. -/
def Run.outcome : Run → Host.Outcome State Fault Refusal
  | .going s => .next s
  | .ended s => .next s
  | .refused f => .refused f

/-- The operation starts: nothing yielded, nothing logged. -/
def State.begin (s : State) : State := { s with result := .nothing, log := [] }

/-- An operation: refused where its precondition fails, else its body (R150). -/
def State.attempt (s : State) (refusal : Option Refusal) (body : State → Run) : Host.Outcome State Fault Refusal :=
  match refusal with
  | some r => .refused r
  | none => (body s.begin).outcome

/-- What every operation but OPEN needs: no other operation going on, no fatal error, the bus open, `mstate` Idle
(R54, R190, R334). -/
def State.commonRefusal (s : State) : Option Refusal :=
  if s.pending.isSome then some .operationInProgress
  else if s.fatal.isSome then some .fatalLatched
  else if !s.busOpen then some .busNotOpen
  else if s.mstate != .idle then some .notIdle
  else none

/-- What OPEN needs (R190, R191). -/
def State.openRefusal (s : State) : Option Refusal :=
  if s.pending.isSome then some .operationInProgress
  else if s.fatal.isSome then some .fatalLatched
  else if s.busOpen then some .busAlreadyOpen
  else if s.mstate != .idle then some .notIdle
  else none

/-- The first refusal of a list of checks. -/
def firstRefusal : List (Option Refusal) → Option Refusal
  | [] => none
  | some r :: _ => some r
  | none :: rest => firstRefusal rest

/-- A check: refused with `r` where `bad` holds. -/
def refuseIf (bad : Bool) (r : Refusal) : Option Refusal := if bad then some r else none

/-- What a register access needs besides: `pstate` On or Configured (R190). -/
def State.accessRefusal (s : State) : Option Refusal :=
  firstRefusal [s.commonRefusal, refuseIf (s.pstate == .off) .wrongPowerState]

/-- One more line of the log. -/
def State.note (s : State) (o : Observation) : State := { s with log := s.log ++ [o] }

/-- The warnings `warn` logs, in order (R10). -/
def State.warnAll (s : State) (ws : List Warning) : State := { s with log := s.log ++ ws.map .warned }

/-- What the operation yields (R148). -/
def State.yields (s : State) (y : Yield) : State := { s with result := y }

/-- `mstate <- m` (R231). -/
def State.moveTo (s : State) (m : MState) : State := { s with mstate := m }.note (.moved m)

/-- `pstate <- p` (R190). -/
def State.powerTo (s : State) (p : PState) : State := { s with pstate := p }.note (.power p)

/-- The line of the log for a transfer: what a write receives is ignored (R99). -/
def frameNote (tx rx : List Byte) : Observation :=
  if commandWrite (tx.headD 0) then .sent tx else .frame tx rx

/-- One bus transfer; the log keeps its bytes (R94). -/
def State.transfer (s : State) (tx : List Byte) : List Byte × State :=
  let (rx, w) := s.world.transfer s.params tx
  (rx, { s with world := w }.note (frameNote tx rx))

/-- RD8: byte 0 discarded (R160). -/
def State.busRd8 (s : State) (r : Reg8) : Byte × State :=
  let (rx, s) := s.transfer [commandByte false false (regAddr8 r), 0x00#8]
  (byteAt rx 1, s)

/-- WR8 (R161). -/
def State.busWr8 (s : State) (r : Reg8) (v : Byte) : State :=
  (s.transfer [commandByte false true (regAddr8 r), v]).2

/-- RD16: the `_H` byte first (R162). -/
def State.busRd16 (s : State) (p : Pair) : Half × State :=
  let (rx, s) := s.transfer [commandByte true false (regAddrPair p), 0x00#8, 0x00#8]
  (joinHalf (byteAt rx 1) (byteAt rx 2), s)

/-- WR16: the `_H` byte first (R163). -/
def State.busWr16 (s : State) (p : Pair) (v : Half) : State :=
  (s.transfer [commandByte true true (regAddrPair p), hiByte v, loByte v]).2

/-- RD24 (R164). -/
def State.busRd24 (s : State) (r : Reg24) : Word24 × State :=
  let (rx, s) := s.transfer [commandByte false false (regAddr24 r), 0x00#8, 0x00#8, 0x00#8]
  (join24 (byteAt rx 1) (byteAt rx 2) (byteAt rx 3), s)

/-- RDALL8 (R165). -/
def State.busRdAll8 (s : State) : File8 Byte × State :=
  let (rx, s) := s.transfer (commandByte true false 0x00#6 :: zeros 10)
  (file8OfBytes rx.tail, s)

/-- RDALL24 (R166). -/
def State.busRdAll24 (s : State) : File24 Word24 × State :=
  let (rx, s) := s.transfer (commandByte true false 0x10#6 :: zeros 39)
  (file24OfBytes rx.tail, s)

/-- A slot with a value just learned: present, not stale (R43). -/
def Slot.fresh {w : Nat} (v : BitVec w) : Slot w := ⟨some v, false⟩

/-- The same slot, stale (R43). -/
def Slot.marked {w : Nat} (x : Slot w) : Slot w := { x with stale := true }

/-- The value of a slot that is neither absent nor stale (R43). -/
def Slot.live {w : Nat} (x : Slot w) : Option (BitVec w) := if x.stale then none else x.value

/-- The 16-bit slot of two byte slots: their combined value, absent if either is, stale if either is (R44). -/
def joinSlots (h l : Slot 8) : Slot 16 :=
  ⟨match h.value, l.value with
    | some a, some b => some (joinHalf a b)
    | none, _ => none
    | some _, none => none,
   h.stale || l.stale⟩

/-- The 16-bit slot the two byte slots of a pair give (R44). -/
def State.pairSlot (s : State) (p : Pair) : Slot 16 :=
  joinSlots (s.mirror8.get (pairHi p)) (s.mirror8.get (pairLo p))

/-- The 16-bit slot of a pair, recomputed from its byte slots (R44). -/
def State.refreshPair (s : State) (p : Pair) : State := { s with mirror16 := s.mirror16.set p (s.pairSlot p) }

/-- `m[a] <- v` for an 8-bit register, its stale mark cleared and its pair's 16-bit slot refreshed (R42 to R44). -/
def State.learn8 (s : State) (r : Reg8) (v : Byte) : State :=
  let s := { s with mirror8 := s.mirror8.set r (Slot.fresh v) }
  match pairOf r with
  | some p => s.refreshPair p
  | none => s

/-- The mirror of a pair: both bytes and the 16-bit slot, none stale (R44). -/
def State.learn16 (s : State) (p : Pair) (v : Half) : State :=
  { s with
    mirror8 := (s.mirror8.set (pairHi p) (Slot.fresh (hiByte v))).set (pairLo p) (Slot.fresh (loByte v))
    mirror16 := s.mirror16.set p (Slot.fresh v) }

/-- `m[a] <- v` for a 24-bit register (R42). -/
def State.learn24 (s : State) (r : Reg24) (v : Word24) : State :=
  { s with mirror24 := s.mirror24.set r (Slot.fresh v) }

/-- The ten 8-bit slots and the three 16-bit slots from one bulk read (R107, R168). -/
def State.learnAll8 (s : State) (b : File8 Byte) : State :=
  { s with
    mirror8 := b.map Slot.fresh
    mirror16 :=
      ⟨Slot.fresh (joinHalf b.coarseOvfH b.coarseOvfL), Slot.fresh (joinHalf b.clockOvfH b.clockOvfL),
       Slot.fresh (joinHalf b.stopMaskH b.stopMaskL)⟩ }

/-- The thirteen 24-bit slots from one bulk read (R107, R169). -/
def State.learnAll24 (s : State) (b : File24 Word24) : State := { s with mirror24 := b.map Slot.fresh }

/-- Every slot keeps its value and is marked stale (R43, R108). -/
def State.markStale (s : State) : State :=
  { s with
    mirror8 := s.mirror8.map Slot.marked
    mirror24 := s.mirror24.map Slot.marked
    mirror16 := s.mirror16.map Slot.marked }

/-- The environment's turn before an action of the controller. -/
def State.nextTurn (s : State) : Turn × State :=
  let (turn, w) := s.world.nextTurn s.params
  (turn, { s with world := w })

/-- `Line(role) <- level` for an assigned output, after the environment's turn; nothing for an unassigned role (R4, R10,
R388). -/
def State.driveLine (s : State) (role : PinRole) (level : Bool) : State :=
  if s.params.pins.has role then
    let (turn, s) := s.nextTurn
    { s with world := s.world.drive s.params turn role level }.note (.drive role level)
  else s

/-- An unassigned pin disables its feature with a warning (R56; log entry 32). -/
def State.warnUnassigned (s : State) (role : PinRole) : State :=
  if s.params.pins.has role then s else s.warnAll [.unassigned role]

/-- Drive a line where it is assigned, else warn (R56). -/
def State.driveOrWarn (s : State) (role : PinRole) (level : Bool) : State :=
  (s.warnUnassigned role).driveLine role level

/-- `Delay(t)` (R10). -/
def State.delay (s : State) (t : Rat) : State := { s with world := s.world.delay s.params t }

/-- `WaitLine(role, level, d)` (R235). -/
def State.waitLine (s : State) (role : PinRole) (level : Bool) (d : Rat) : WaitResult × State :=
  let (r, w) := s.world.waitLine s.params role level d
  (r, { s with world := w })

/-- The output lines at their levels after OPEN: ENABLE, OSC_ENABLE, START and STOP low (R58, R191). -/
def State.driveOutputsLow (s : State) : State :=
  (((s.driveLine .enable false).driveLine .oscEnable false).driveLine .start false).driveLine .stop false

/-- OFF's body: ENABLE low, the reset interval, every slot stale, `pstate` Off (R195). -/
def State.powerDown (s : State) : State :=
  (((s.driveOrWarn .enable false).delay s.params.tResetMin).markStale).powerTo .off

/-- ON's body: OSC_ENABLE high, ENABLE high, the settle interval, `pstate` On (R196). -/
def State.powerUp (s : State) : State :=
  (((s.driveOrWarn .oscEnable true).driveOrWarn .enable true).delay s.params.tSettle).powerTo .on

/-- TAKING A FATAL ERROR: latch it, attempt a clean power-off if the bus is open, end the operation with it
(R328). -/
def State.raiseFatal (s : State) (e : FatalError) : State :=
  let s := { s with fatal := some e }.note (.failed e)
  let s := if s.busOpen then s.powerDown else s
  { s with mstate := .idle, result := .failed e }

/-- RETURNING FROM MEASURE: `finish(o)`, the outcome latched and yielded, `mstate` back to Idle (R230, R326, R330). -/
def State.finish (s : State) (o : MeasOutcome) : State :=
  ({ s with outcome := some o }.moveTo .idle).yields (.outcome o)

/-- TAKING A PER-MEASUREMENT ERROR in MEASURE: through its terminal state, logged, reported as the outcome (R231,
R326, R327). -/
def State.raiseMeasurement (s : State) (terminal : MState) (o : MeasOutcome) : State :=
  ((s.moveTo terminal).note (.reported o)).finish o

/-- The write never verified within the limit: ConfigurationWriteFailure, the address and value in the log (R200,
R316). -/
def State.writeFailed (s : State) (a : Addr) (v : Nat) : State :=
  (s.note (.unverified a v)).raiseFatal .configurationWriteFailure

/-- The address a verified write goes to (R198, R199). -/
def VerifiedWrite.addr : VerifiedWrite → Addr
  | .byte r _ => regAddr8 r
  | .pair p _ => regAddrPair p

/-- The value of a verified write. -/
def VerifiedWrite.value : VerifiedWrite → Nat
  | .byte _ v => v.toNat
  | .pair _ v => v.toNat

/-- One attempt of WRV8: write, read back, compare; START_MEAS of CONFIG1 is left out (R198). -/
def State.attempt8 (s : State) (r : Reg8) (v : Byte) : Bool × State :=
  let (x, s) := (s.busWr8 r v).busRd8 r
  let x := if r = .config1 then withoutStartMeas s.params.layout x else x
  (x == v, s)

/-- One attempt of WRV16 (R199). -/
def State.attempt16 (s : State) (p : Pair) (v : Half) : Bool × State :=
  let (x, s) := (s.busWr16 p v).busRd16 p
  (x == v, s)

/-- One attempt of a verified write. -/
def State.attemptWrite (s : State) : VerifiedWrite → Bool × State
  | .byte r v => s.attempt8 r v
  | .pair p v => s.attempt16 p v

/-- The mirror learns a value that read back (R198, R199). -/
def State.learnVerified (s : State) : VerifiedWrite → State
  | .byte r v => s.learn8 r v
  | .pair p v => s.learn16 p v

/-- Up to `n` attempts, until one matches. -/
def State.tries (w : VerifiedWrite) : Nat → State → Bool × State
  | 0, s => (false, s)
  | n + 1, s =>
    match s.attemptWrite w with
    | (true, s) => (true, s)
    | (false, s) => State.tries w n s

/-- How many attempts a write-verify loop makes in one step: all that RETRY_LIMIT allows, at least one; without a limit
as many as the script has turns for and one more, after which the loop goes on in the next step (R200; log entry 11). -/
def State.attemptsNow (s : State) : Nat :=
  match s.params.retryLimit with
  | some n => n - 1 + 1
  | none => s.world.script.length + 1

/-- The write-verify loops of an operation, one after the other: a write that does not match within RETRY_LIMIT is the
fatal ConfigurationWriteFailure; without a limit its loop goes on in the next step (R198 to R200). -/
def State.writeAll (op : WriteOp) : List VerifiedWrite → State → Run
  | [], s => .going s
  | w :: rest, s =>
    match State.tries w s.attemptsNow s with
    | (true, s) => State.writeAll op rest (s.learnVerified w)
    | (false, s) =>
      if s.params.retryLimit.isSome then .ended (s.writeFailed w.addr w.value)
      else .ended { s with pending := some ⟨op, w :: rest⟩ }

/-- What an operation does once its writes are verified (R202, R212, R232, R257). -/
def State.afterWrites (s : State) : WriteOp → State
  | .configure => { s with calPeriods := s.cfg.map Cfg.calPeriods }.powerTo .configured
  | .configureRetain => s.powerTo .configured
  | .hardRecover => s.powerTo .configured
  | .measure => (s.powerTo .configured).raiseMeasurement .protocolError .triggerPolarity

/-- The rest of an operation, from its first verified write on. -/
def State.finishWrites (s : State) (op : WriteOp) (writes : List VerifiedWrite) : Run :=
  (State.writeAll op writes s).andThen fun s => .going (s.afterWrites op)

/-- The five configuration writes, in the source's order (R202, R212). -/
def configurationWrites (c1 c2 mask : Byte) (stopMask overflow : Half) : List VerifiedWrite :=
  [.byte .config1 c1, .byte .config2 c2, .byte .intMask mask, .pair .stopMask stopMask, .pair .clockOvf overflow]

/-- A pending operation goes on (R200; log entry 11). -/
def State.resume (s : State) (p : Pending) : Host.Outcome State Fault Refusal :=
  ({ s with pending := none }.begin.finishWrites p.op p.writes).outcome

/-- Between operations: the environment takes one turn (R3; log entry 10). -/
def State.idleTurn (s : State) : State := s.nextTurn.2

/-- The request at the head of the host's queue, decoded, and the state without it. -/
def State.fetch (s : State) : Option (Except DecodeError Instr × State) :=
  match s.requests with
  | [] => none
  | r :: rest => some (decode r, { s with requests := rest })

/-- The host places a request at the head of the queue (log entry 10). -/
def State.place (s : State) (r : Request) : State := { s with requests := r :: s.requests }

end Sys2Proof.Machine
end

