-- ==== Sys2Proof/Machine/BusTransactions.lean ====
section
/-! DEFINITION. The seven bus transactions and the four host operations that wrap them
(spec/40_bus_transactions.md R160 to R171). -/

namespace Sys2Proof.Machine

/-- RD8 (R160). -/
def execRd8 (r : Reg8) (s : State) : Host.Outcome State Fault Refusal :=
  s.attempt s.accessRefusal fun s =>
    let (v, s) := s.busRd8 r
    .going (s.yields (.byte v))

/-- WR8 (R161). -/
def execWr8 (r : Reg8) (v : Byte) (s : State) : Host.Outcome State Fault Refusal :=
  s.attempt s.accessRefusal fun s => .going (s.busWr8 r v)

/-- RD16 (R162). -/
def execRd16 (p : Pair) (s : State) : Host.Outcome State Fault Refusal :=
  s.attempt s.accessRefusal fun s =>
    let (v, s) := s.busRd16 p
    .going (s.yields (.half v))

/-- WR16 (R163). -/
def execWr16 (p : Pair) (v : Half) (s : State) : Host.Outcome State Fault Refusal :=
  s.attempt s.accessRefusal fun s => .going (s.busWr16 p v)

/-- RD24 (R164). -/
def execRd24 (r : Reg24) (s : State) : Host.Outcome State Fault Refusal :=
  s.attempt s.accessRefusal fun s =>
    let (v, s) := s.busRd24 r
    .going (s.yields (.word v))

/-- RDALL8 (R165). -/
def execRdall8 (s : State) : Host.Outcome State Fault Refusal :=
  s.attempt s.accessRefusal fun s =>
    let (v, s) := s.busRdAll8
    .going (s.yields (.block8 v))

/-- RDALL24 (R166). -/
def execRdall24 (s : State) : Host.Outcome State Fault Refusal :=
  s.attempt s.accessRefusal fun s =>
    let (v, s) := s.busRdAll24
    .going (s.yields (.block24 v))

/-- READ_REGS8's body: one RDALL8 into the mirror (R168). -/
def State.readRegs8 (s : State) : State :=
  let (b, s) := s.busRdAll8
  s.learnAll8 b

/-- READ_REGS24's body: one RDALL24 into the mirror (R169). -/
def State.readRegs24 (s : State) : State :=
  let (b, s) := s.busRdAll24
  s.learnAll24 b

/-- READ_REGS8 (R168). -/
def execReadRegs8 (s : State) : Host.Outcome State Fault Refusal :=
  s.attempt s.accessRefusal fun s => .going s.readRegs8

/-- READ_REGS24 (R169). -/
def execReadRegs24 (s : State) : Host.Outcome State Fault Refusal :=
  s.attempt s.accessRefusal fun s => .going s.readRegs24

/-- REG_READ's body: one transfer of the register's width, the mirror, the value (R170). -/
def State.regRead (s : State) (name : RegName) : State :=
  match name with
  | .byte r =>
    let (v, s) := s.busRd8 r
    (s.learn8 r v).yields (.byte v)
  | .pair p =>
    let (v, s) := s.busRd16 p
    (s.learn16 p v).yields (.half v)
  | .result r =>
    let (v, s) := s.busRd24 r
    (s.learn24 r v).yields (.word v)

/-- REG_READ (R170). -/
def execRegRead (name : RegName) (s : State) : Host.Outcome State Fault Refusal :=
  s.attempt s.accessRefusal fun s => .going (s.regRead name)

/-- What REG_WRITE refuses of its operands: a 24-bit register, a value wider than the register, a reserved field code
(R24, R129, R144, R171). -/
def regWriteRefusal (L : Layout) (name : RegName) (value : Nat) : Option Refusal :=
  match name with
  | .byte r =>
    firstRefusal
      [refuseIf (decide (256 ≤ value)) .valueTooWide,
       refuseIf (holdsReservedCode L r (BitVec.ofNat 8 value)) .reservedCode]
  | .pair _ => refuseIf (decide (65536 ≤ value)) .valueTooWide
  | .result _ => some .resultWrite

/-- The mirror after REG_WRITE sent `v` to an 8-bit register: unchanged for INT_STATUS, START_MEAS forced to 0 for
CONFIG1 (R171). -/
def State.learnWritten (s : State) (r : Reg8) (v : Byte) : State :=
  if r = .intStatus then s
  else if r = .config1 then s.learn8 r (withoutStartMeas s.params.layout v)
  else s.learn8 r v

/-- REG_WRITE's body: one unverified write and the mirror, which learns the byte sent (R171; log entries 24, 36). -/
def State.regWrite (s : State) (name : RegName) (value : Nat) : State :=
  match name with
  | .byte r =>
    (s.busWr8 r (regWriteByte s.params.layout r value)).learnWritten r (regWriteByte s.params.layout r value)
  | .pair p => (s.busWr16 p (BitVec.ofNat 16 value)).learn16 p (BitVec.ofNat 16 value)
  | .result _ => s

/-- REG_WRITE (R171). -/
def execRegWrite (name : RegName) (value : Nat) (s : State) : Host.Outcome State Fault Refusal :=
  s.attempt (firstRefusal [s.accessRefusal, regWriteRefusal s.params.layout name value]) fun s =>
    .going (s.regWrite name value)

end Sys2Proof.Machine
end

