-- ==== Sys2Proof/Machine/Calibration.lean ====
section
/-! DEFINITION. COMPUTE_TOFS: the calibration and time-of-flight pipeline (spec/43_calibration.md R280 to R305). The
formulas are over a number system: the latches are those of exact rationals (R303, D42), what the host receives is those
of FLOAT, each operation of R280 rounded, left to right (R304). -/

namespace Sys2Proof.Machine

/-- `cal_count = (C2 − C1) / (P − 1)`, exact and signed; none under the zero guard, which tests the integers
(R283, R284, R305). -/
def calCountOf (periods : Nat) (c1 c2 : Word24) : Option Rat :=
  if periods = 1 ∨ c2 = c1 then none
  else some ((((c2.toNat : Int) - c1.toNat : Int) : Rat) / (((periods : Int) - 1 : Int) : Rat))

/-- A mode-1 slot: absent when TIMEi is 0, else `norm_lsb * TIMEi` (R286, R287, R290). -/
def tofMode1 (f : NumberSystem) (norm : Rat) (time : Word24) : Option Rat :=
  if time = 0#24 then none else some (f.round (norm * (time.toNat : Rat)))

/-- A mode-2 slot: absent when TIME(i+1) is 0, else
`norm_lsb * (TIME1 − TIME(i+1)) + (CLOCK_COUNTi / avg) * CLOCK_PERIOD` (R288 to R290). -/
def tofMode2 (f : NumberSystem) (norm clockPeriod : Rat) (avg : Nat) (time1 timeNext count : Word24) : Option Rat :=
  if timeNext = 0#24 then none
  else some (f.round (f.round (norm * (((time1.toNat : Int) - timeNext.toNat : Int) : Rat))
    + f.round (f.round ((count.toNat : Rat) / (avg : Rat)) * clockPeriod)))

/-- The five slots (R286 to R290). -/
def tofsOf (f : NumberSystem) (mode : Nat) (norm clockPeriod : Rat) (avg : Nat) (x : File24 Word24) : Tofs :=
  if mode = 1 then
    ⟨tofMode1 f norm x.time1, tofMode1 f norm x.time2, tofMode1 f norm x.time3, tofMode1 f norm x.time4,
     tofMode1 f norm x.time5⟩
  else
    ⟨tofMode2 f norm clockPeriod avg x.time1 x.time2 x.clockCount1,
     tofMode2 f norm clockPeriod avg x.time1 x.time3 x.clockCount2,
     tofMode2 f norm clockPeriod avg x.time1 x.time4 x.clockCount3,
     tofMode2 f norm clockPeriod avg x.time1 x.time5 x.clockCount4,
     tofMode2 f norm clockPeriod avg x.time1 x.time6 x.clockCount5⟩

/-- The five slots as a list, in order. -/
def Tofs.toList (t : Tofs) : List (Option Rat) := [t.t1, t.t2, t.t3, t.t4, t.t5]

/-- The pulse count: how many slots are present (R291). -/
def Tofs.count (t : Tofs) : Nat := t.toList.countP Option.isSome

/-- All five slots absent (R292). -/
def Tofs.none : Tofs := ⟨Option.none, Option.none, Option.none, Option.none, Option.none⟩

/-- All four deltas absent (R292). -/
def Deltas.none : Deltas := ⟨Option.none, Option.none, Option.none, Option.none⟩

/-- A delta: present only when both its slots are (R293). -/
def deltaOf (f : NumberSystem) (earlier later : Option Rat) : Option Rat :=
  match earlier, later with
  | some a, some b => some (f.round (b - a))
  | some _, Option.none => Option.none
  | Option.none, _ => Option.none

/-- The four deltas (R293). -/
def deltasOf (f : NumberSystem) (t : Tofs) : Deltas :=
  ⟨deltaOf f t.t1 t.t2, deltaOf f t.t2 t.t3, deltaOf f t.t3 t.t4, deltaOf f t.t4 t.t5⟩

/-- The results for an exact `cal_count` and the registers read, every operation of R280 in the number system `f`: the
difference of the calibration registers and their divisor are integers, so `cal_count` is one division; CLOCK_PERIOD is
first brought into the system (R280, R304; log entry 29). -/
def resultsOf (f : NumberSystem) (clockPeriod calCount : Rat) (c : Cfg) (x : File24 Word24) : Delivery :=
  let norm := f.round (f.round clockPeriod / f.round calCount)
  let tof := tofsOf f c.measMode norm (f.round clockPeriod) c.avgCycles x
  { calCount := some (f.round calCount)
    normLsb := some norm
    tof := tof
    delta := deltasOf f tof }

/-- What is delivered without a calibration: no times (R292). -/
def Delivery.noCalibration : Delivery := ⟨some 0, none, Tofs.none, Deltas.none⟩

/-- The five slots as numbers: `absent` is delivered as 0 (R51, R290). -/
def Tofs.numbers (t : Tofs) : List Rat := t.toList.map fun x => x.getD 0

/-- Every 24-bit slot of the mirror is neither absent nor stale (R281). -/
def State.results24Live (s : State) : Bool := s.mirror24.toList.all fun x => x.live.isSome

/-- The values of the 24-bit slots. -/
def State.results24 (s : State) : File24 Word24 := s.mirror24.map fun x => x.live.getD 0#24

/-- CONFIG1 and CONFIG2 in the mirror carry `cfg`'s mode and averaging codes (R282). -/
def mirrorAgrees (L : Layout) (c : Cfg) (c1 c2 : Byte) : Bool :=
  measModeCode L c1 == measModeOf c.measMode && cyclesOfCode (avgCode L c2) == c.avgCycles

/-- What COMPUTE_TOFS needs of `cfg` and the mirror (R281, R282). -/
def State.tofRefusal (s : State) : Option Refusal :=
  match s.cfg, s.calPeriods with
  | some c, some _ =>
    match s.mirror8.config1.live, s.mirror8.config2.live with
    | some c1, some c2 =>
      firstRefusal
        [refuseIf (!s.results24Live) .mirrorUnusable, refuseIf (!mirrorAgrees s.params.layout c c1 c2) .mirrorDisagrees]
    | _, _ => some .mirrorUnusable
  | _, _ => some .cfgUnset

/-- The result latches of a calibrated measurement, exact, and the same as delivered (R280, R285, R291, R293, R304). -/
def State.latchTofs (s : State) (calCount : Rat) (c : Cfg) : State :=
  let exact := resultsOf .exact s.params.clockPeriod calCount c s.results24
  { s with
    calCount := exact.calCount
    normLsb := exact.normLsb
    tof := exact.tof
    delta := exact.delta
    pulseCount := exact.tof.count
    delivered := resultsOf s.params.float s.params.clockPeriod calCount c s.results24 }

/-- The result latches without a calibration (R284, R292). -/
def State.latchNoCalibration (s : State) : State :=
  { s with
    calCount := some 0
    normLsb := none
    tof := Tofs.none
    delta := Deltas.none
    pulseCount := 0
    delivered := Delivery.noCalibration }

/-- What the pipeline ends in. -/
inductive TofResult where
  | counted (pulses : Nat)
  | noCalibration
deriving DecidableEq, Repr

/-- COMPUTE_TOFS's body (R280). -/
def State.computeTofs (s : State) (c : Cfg) (periods : Nat) : TofResult × State :=
  match calCountOf periods s.results24.calibration1 s.results24.calibration2 with
  | some q => (.counted (s.latchTofs q c).pulseCount, s.latchTofs q c)
  | none => (.noCalibration, s.latchNoCalibration)

/-- TAKING NoCalibrationError in a COMPUTE_TOFS called by the host: it is reported, and the operation returns it as an
outcome value (R10, R280, R315). The latch `outcome` stays the last MEASURE's (R53), and `mstate` stays Idle, since R231
has no transition for it: R326's entry is MEASURE's (DEDUCED, log entry 22). -/
def State.raiseAtHost (s : State) : State :=
  (s.note (.reported .noCalibration)).yields (.outcome .noCalibration)

/-- COMPUTE_TOFS called by the host: the pulse count or the error is yielded (R280, R315). -/
def State.hostComputeTofs (s : State) : Run :=
  match s.cfg, s.calPeriods with
  | some c, some periods =>
    match s.computeTofs c periods with
    | (.counted n, s) => .going (s.yields (.pulses n))
    | (.noCalibration, s) => .ended s.raiseAtHost
  | _, _ => .refused .cfgUnset

/-- COMPUTE_TOFS (R280 to R305). -/
def execComputeTofs (s : State) : Host.Outcome State Fault Refusal :=
  s.attempt
    (firstRefusal [s.commonRefusal, refuseIf (s.pstate != .configured) .wrongPowerState, s.tofRefusal])
    fun s => s.hostComputeTofs

/-- What the collaborator receives: `delta[1]`, when the outcome is a pulse count of 2 or more (R294, R304). -/
def State.decayInterval (s : State) : Option Rat :=
  match s.outcome with
  | some (.success n) => if 2 ≤ n then s.delivered.delta.d1 else none
  | _ => none

/-- The host's histogram of a batch: eleven counters indexed by the outcome codes 0 to 10 (R329). -/
def histogram (outcomes : List MeasOutcome) : List Nat :=
  (List.range 11).map fun k => outcomes.countP fun o => o.code == k

end Sys2Proof.Machine
end

