-- ==== Sys2Proof/Machine/PowerConfig.lean ====
section
/-! DEFINITION. Power and configuration operations (spec/41_power_config.md R190 to R214). -/

namespace Sys2Proof.Machine

/-- OPEN (R191, R192): the environment decides whether the transport opens; a transport that cannot be opened is the
fatal BusUnavailable. -/
def execOpen (s : State) : Host.Outcome State Fault Refusal :=
  s.attempt s.openRefusal fun s =>
    let (turn, s) := s.nextTurn
    .going (if turn.opens then { s with busOpen := true }.driveOutputsLow
      else s.raiseFatal .busUnavailable)

/-- SET_CLOCK_SPEED (R193, R194). -/
def execSetClockSpeed (requested : Rat) (force : Bool) (s : State) : Host.Outcome State Fault Refusal :=
  s.attempt (firstRefusal [s.commonRefusal, refuseIf (decide (requested ≤ 0)) .speedNotPositive]) fun s =>
    let (speed, warnings) := chosenSpeed s.params requested force
    .going (({ s with busSpeed := some speed }.warnAll warnings).yields (.speed speed))

/-- OFF (R195). -/
def execOff (s : State) : Host.Outcome State Fault Refusal :=
  s.attempt s.commonRefusal fun s => .going s.powerDown

/-- ON (R196). -/
def execOn (s : State) : Host.Outcome State Fault Refusal :=
  s.attempt (firstRefusal [s.commonRefusal, refuseIf (s.pstate != .off) .wrongPowerState]) fun s => .going s.powerUp

/-- The writes of CONFIGURE (R202; R28 for the unnamed bits of INT_MASK_VALUE, log entry 24). -/
def configureWrites (p : Params) (c : Cfg) : List VerifiedWrite :=
  configurationWrites (config1Of p.layout c) (config2Of p.layout c) (sentByte p.layout .intMask p.intMaskValue)
    c.stopMask c.overflow

/-- CONFIGURE's body: `cfg` replaced first, then the five verified writes, `cal_periods` and `pstate` (R202). -/
def State.configure (s : State) (q : ConfigRequest) : Run :=
  let (c, warnings) := normalise s.params q
  ({ s with cfg := some c }.warnAll warnings).finishWrites .configure (configureWrites s.params c)

/-- CONFIGURE (R202 to R210). -/
def execConfigure (q : ConfigRequest) (s : State) : Host.Outcome State Fault Refusal :=
  s.attempt (firstRefusal [s.accessRefusal, refuseIf (stopMaskRefused q) .stopMaskTooLarge]) fun s => s.configure q

/-- The five writes CONFIGURE_RETAIN makes: the mirror's values, stale ones allowed, START_MEAS forced to 0, PARITY_EN and
bits with no field 0; none if a slot it needs is absent (R28, R41, R212; log entries 24 and 36). -/
def State.retained (s : State) : Option (List VerifiedWrite) :=
  match s.mirror8.config1.value, s.mirror8.config2.value, s.mirror8.intMask.value, s.mirror8.stopMaskH.value,
      s.mirror8.stopMaskL.value, s.mirror8.clockOvfH.value, s.mirror8.clockOvfL.value with
  | some c1, some c2, some mask, some mh, some ml, some oh, some ol =>
    some (configurationWrites (sentByte s.params.layout .config1 (withoutStartMeas s.params.layout c1))
      (sentByte s.params.layout .config2 c2) (sentByte s.params.layout .intMask mask) (joinHalf mh ml)
      (joinHalf oh ol))
  | _, _, _, _, _, _, _ => none

/-- What CONFIGURE_RETAIN needs of `cfg` and the mirror (R212). -/
def State.retainRefusal (s : State) : Option Refusal :=
  firstRefusal [refuseIf s.cfg.isNone .cfgUnset, refuseIf s.retained.isNone .mirrorUnusable]

/-- The retained configuration is written again, as the last part of operation `op` (R212, R232, R257). -/
def State.rewrite (s : State) (op : WriteOp) : Run :=
  match s.retained with
  | some writes => s.finishWrites op writes
  | none => .refused .mirrorUnusable

/-- CONFIGURE_RETAIN (R212). -/
def execConfigureRetain (s : State) : Host.Outcome State Fault Refusal :=
  s.attempt (firstRefusal [s.accessRefusal, s.retainRefusal]) fun s => s.rewrite .configureRetain

/-- OFF, ON, and the retained configuration, as the last part of `op`: HARD_RECOVER by itself or in MEASURE (R232,
R257). -/
def State.recover (s : State) (op : WriteOp) : Run := s.powerDown.powerUp.rewrite op

/-- HARD_RECOVER (R257). -/
def execHardRecover (s : State) : Host.Outcome State Fault Refusal :=
  s.attempt
    (firstRefusal [s.commonRefusal, refuseIf (s.pstate != .configured) .wrongPowerState, s.retainRefusal])
    fun s => s.recover .hardRecover

/-- CLEANUP (R214): OFF, then OSC_ENABLE, START and STOP low, the bus released. -/
def execCleanup (s : State) : Host.Outcome State Fault Refusal :=
  s.attempt s.commonRefusal fun s =>
    let s := ((s.powerDown.driveOrWarn .oscEnable false).driveLine .start false).driveLine .stop false
    .going { s with busOpen := false }

/-- The reserved host-operation code 0xF: refused (R148, R150, U19). -/
def execReservedHopF (s : State) : Host.Outcome State Fault Refusal :=
  s.attempt (some .reservedHop) fun s => .going s

end Sys2Proof.Machine
end

