-- ==== Sys2Proof/Machine/Measurement.lean ====
section
/-! DEFINITION. The measurement state machine: MEASURE step by step, SIM_PULSES, CLEAR_STATUS
(spec/42_measurement.md R230 to R255). -/

namespace Sys2Proof.Machine

/-- What MEASURE needs of `cfg` and the mirror: `cfg` set, `m[0x00]` neither absent nor stale (R230). -/
def State.measureRefusal (s : State) : Option Refusal :=
  firstRefusal
    [s.commonRefusal, refuseIf (s.pstate != .configured) .wrongPowerState, refuseIf s.cfg.isNone .cfgUnset,
     refuseIf s.mirror8.config1.live.isNone .mirrorUnusable]

/-- Step 1: with TRIG wired, one sample of it; at the wrong level a hard recovery, then TriggerPolarityError. TRIG
unassigned disables this check and step 3, with one warning (R56, R232, R311). -/
def State.checkPolarity (c : Cfg) (s : State) : Run :=
  if s.params.pins.trig1 then
    let s := s.nextTurn.2
    if s.world.level s.params .trig1 = trigIdle c then .going s
    else
      match s.retainRefusal with
      | some r => .refused r
      | none => s.recover .measure |>.andThen fun s => .ended s
  else .going (s.warnUnassigned .trig1)

/-- Step 2, ARM: one WR8 of the mirror's CONFIG1 with START_MEAS set, and PARITY_EN as 0, as the controller always writes
it; not verified, the mirror not written (R41, R233; log entry 36). -/
def State.arm (config1 : Byte) (s : State) : Run :=
  .going ((s.busWr8 .config1 (armByte s.params.layout config1)).moveTo .armedWaitingTrigger)

/-- The trigger wait's error: named by the polarity of the active edge (R234, R312, R313). -/
def triggerTimeout (c : Cfg) : MeasOutcome := if c.trigFalling then .triggerFallTimeout else .triggerRiseTimeout

/-- Step 3: with TRIG wired, wait for its active level under T_TRIG_DEADLINE (R234). -/
def State.awaitTrigger (c : Cfg) (s : State) : Run :=
  if s.params.pins.trig1 then
    match s.waitLine .trig1 (trigActive c) s.params.tTrigDeadline with
    | (.seen, s) => .going (s.moveTo .triggerSeen)
    | (.timeout, s) => .ended (s.raiseMeasurement .timedOut (triggerTimeout c))
  else .going (s.moveTo .triggerSeen)

/-- One pulse on an output line: the active level, then the idle level (R245). -/
def State.pulse (s : State) (role : PinRole) (active : Bool) : State :=
  (s.driveLine role active).driveLine role (!active)

/-- `k` STOP pulses, each after a gap that is a turn of the environment (R245, R246). -/
def State.stopPulses (active : Bool) : Nat → State → State
  | 0, s => s
  | k + 1, s => State.stopPulses active k (s.nextTurn.2.pulse .stop active)

/-- SIM_PULSES: one START pulse, then a drawn number of STOP pulses from 0 to `cfg.num_stop`; a line that is not assigned
is not driven, with a warning (R56, R245, R246). -/
def State.simPulses (c : Cfg) (s : State) : State :=
  let s := (s.warnUnassigned .start).pulse .start (startActive c)
  let (turn, s) := (s.warnUnassigned .stop).nextTurn
  State.stopPulses (stopActive c) (turn.pulses % (c.numStop + 1)) s

/-- Step 4: in simulate mode the pulses, else nothing (R245). -/
def State.supplyPulses (c : Cfg) (s : State) : Run :=
  .going ((if s.params.simulate then s.simPulses c else s).moveTo .waitingInterrupt)

/-- Step 5: wait for INT under the mandatory deadline; with INT unassigned warn and wait the whole
deadline out (R56, R248, R249, R251). -/
def State.awaitInterrupt (c : Cfg) (s : State) : Run :=
  if s.params.pins.int1 then
    match s.waitLine .int1 s.params.intActive (interruptDeadline s.params c) with
    | (.seen, s) => .going s
    | (.timeout, s) => .ended (s.raiseMeasurement .timedOut .interruptTimeout)
  else .going ((s.warnUnassigned .int1).delay (interruptDeadline s.params c))

/-- Step 6: read the results and convert them (R250). -/
def State.readAndConvert (c : Cfg) (s : State) : Run :=
  let s := s.readRegs24
  match s.tofRefusal with
  | some r => .refused r
  | none =>
    match s.computeTofs c (s.calPeriods.getD 0) with
    | (.counted n, s) => .going ((s.moveTo (.success n)).finish (.success n))
    | (.noCalibration, s) => .ended (s.raiseMeasurement .protocolError .noCalibration)

/-- MEASURE's body: the six steps in order; the first that ends the operation decides the outcome (R230, R324). -/
def State.measure (c : Cfg) (config1 : Byte) (s : State) : Run :=
  (((((s.checkPolarity c).andThen (State.arm config1)).andThen (State.awaitTrigger c)).andThen
    (State.supplyPulses c)).andThen (State.awaitInterrupt c)).andThen (State.readAndConvert c)

/-- MEASURE (R230 to R253). -/
def execMeasure (s : State) : Host.Outcome State Fault Refusal :=
  s.attempt s.measureRefusal fun s =>
    match s.cfg, s.mirror8.config1.live with
    | some c, some config1 => s.measure c config1
    | none, _ => .refused .cfgUnset
    | some _, none => .refused .mirrorUnusable

/-- CLEAR_STATUS's body: forced, every status bit written blindly; else read, then the bits read written back, those with
no field as 0 (R28, R255; log entry 24). What was read goes into the mirror, as R255 writes it, although R42's list of
"exactly these steps" leaves CLEAR_STATUS out: R255 is followed (DEDUCED, log entry 42). -/
def State.clearStatus (force : Bool) (s : State) : State :=
  if force then s.busWr8 .intStatus (allStatus s.params.layout)
  else
    let (v, s) := s.busRd8 .intStatus
    let s := s.learn8 .intStatus v
    if v = 0x00#8 then s else s.busWr8 .intStatus (sentByte s.params.layout .intStatus v)

/-- CLEAR_STATUS (R255). -/
def execClearStatus (force : Bool) (s : State) : Host.Outcome State Fault Refusal :=
  s.attempt s.accessRefusal fun s => .going (s.clearStatus force)

end Sys2Proof.Machine
end

