-- ==== Sys2Proof/Machine/Dispatch.lean ====
section
/-! DEFINITION. One arm per instruction: exec calls each instruction's meaning. -/

namespace Sys2Proof.Machine

-- bus transactions (spec/40_bus_transactions.md), then host operations in the order of their codes (R148)
def exec (i : Instr) (s : State) : Host.Outcome State Fault Refusal :=
  match i with
  | .rd8 r => Sys2Proof.Machine.execRd8 r s
  | .wr8 r v => Sys2Proof.Machine.execWr8 r v s
  | .rd16 p => Sys2Proof.Machine.execRd16 p s
  | .wr16 p v => Sys2Proof.Machine.execWr16 p v s
  | .rd24 r => Sys2Proof.Machine.execRd24 r s
  | .rdall8 => Sys2Proof.Machine.execRdall8 s
  | .rdall24 => Sys2Proof.Machine.execRdall24 s
  | .openBus => Sys2Proof.Machine.execOpen s
  | .setClockSpeed requested force => Sys2Proof.Machine.execSetClockSpeed requested force s
  | .powerOff => Sys2Proof.Machine.execOff s
  | .powerOn => Sys2Proof.Machine.execOn s
  | .configure request => Sys2Proof.Machine.execConfigure request s
  | .configureRetain => Sys2Proof.Machine.execConfigureRetain s
  | .measure => Sys2Proof.Machine.execMeasure s
  | .clearStatus force => Sys2Proof.Machine.execClearStatus force s
  | .readRegs8 => Sys2Proof.Machine.execReadRegs8 s
  | .readRegs24 => Sys2Proof.Machine.execReadRegs24 s
  | .computeTofs => Sys2Proof.Machine.execComputeTofs s
  | .cleanup => Sys2Proof.Machine.execCleanup s
  | .regRead name => Sys2Proof.Machine.execRegRead name s
  | .hardRecover => Sys2Proof.Machine.execHardRecover s
  | .regWrite name value => Sys2Proof.Machine.execRegWrite name value s
  | .reservedHopF => Sys2Proof.Machine.execReservedHopF s

end Sys2Proof.Machine
end

