-- ==== Sys2Proof/Machine/Step.lean ====
section
/-! DEFINITION. One step: an operation that goes on goes on; else the request at the head of the host's queue is decoded
and run; with an empty queue the environment takes a turn (spec/00_scope.md R3; log entries 10, 11). -/

namespace Sys2Proof.Machine

/-- One step of the block. -/
def step (s : State) : Host.Outcome State Fault Refusal :=
  match s.pending with
  | some p => s.resume p
  | none =>
    match s.fetch with
    | none => .next s.idleTurn
    | some (.ok i, s) => exec i s
    | some (.error e, _) => .refused (.undecodable e)

/-- `s` with the request of a table word at the head of the host's queue, where step fetches (log entries 9, 10). -/
def State.withFetchWord (s : State) (nbits w : Nat) : State := s.place (tableRequest nbits w)

end Sys2Proof.Machine
end

