-- ==== Sys2Proof/Safety.lean ====
section
/-! DEFINITION. The terms statements are made in: when an operation may run, what a quiet bus is, and the invariants
of the block that every step keeps. -/

namespace Sys2Proof.Machine

/-- The block accepts operations: none going on, no fatal error, the bus open, `mstate` Idle (R190, R334). -/
abbrev State.Accepting (s : State) : Prop :=
  s.pending = none ∧ s.fatal = none ∧ s.busOpen = true ∧ s.mstate = .idle

/-- A register may be accessed: the block accepts operations and the target runs (R190, R371). -/
abbrev State.Accessible (s : State) : Prop := s.Accepting ∧ s.pstate ≠ .off

/-- The environment's next `n` turns are scripted and their transfers clean (R97). -/
def State.CleanNext (s : State) (n : Nat) : Prop :=
  n ≤ s.world.script.length ∧ ∀ turn ∈ s.world.script.take n, turn.noise = .clean

/-- The lines with an output at a level; an input is not driven (R56). -/
def Lines.driven (x : Lines) (role : PinRole) (level : Bool) : Lines :=
  match role with
  | .enable => { x with enable := level }
  | .oscEnable => { x with oscEnable := level }
  | .start => { x with start := level }
  | .stop => { x with stop := level }
  | .trig1 => x
  | .trig2 => x
  | .int1 => x
  | .int2 => x

/-- The log line of a drive that warns where the line is not assigned (R56). -/
def driveNote (pins : Pins) (role : PinRole) (l : Bool) : Observation :=
  if pins.has role then .drive role l else .warned (.unassigned role)

/-- The turn the environment takes before the next action. -/
def State.turn (s : State) : Turn := (s.world.nextTurn s.params).1

/-- The world as the environment leaves it before the next action. -/
def State.around (s : State) : World := (s.world.nextTurn s.params).2

/-- The world after a write of `v` reached the 8-bit register `r` in this turn; no pointer outlives the transfer
(R60, R96). -/
def World.store8 (L : Layout) (turn : Turn) (r : Reg8) (v : Byte) (w : World) : World :=
  { w with target := { w.target.store L turn r v with ap := none } }

/-- The world after a write of a pair reached the target: the `_H` byte, then the `_L` byte (R96). -/
def World.store16 (L : Layout) (turn : Turn) (p : Pair) (v : Half) (w : World) : World :=
  { w with
    target := { (w.target.store L turn (pairHi p) (hiByte v)).store L turn (pairLo p) (loByte v) with ap := none } }

/-- The world after a write reached the register in the next turn. -/
def State.stored8 (s : State) (r : Reg8) (v : Byte) : World := s.around.store8 s.params.layout s.turn r v

/-- The world after a write reached the pair in the next turn. -/
def State.stored16 (s : State) (p : Pair) (v : Half) : World := s.around.store16 s.params.layout s.turn p v

/-- The value a clean read of an 8-bit register gives: its own; but while the target is busy, INT_STATUS reads as before
the arming, or with each status bit raised for the measurement in flight set or not yet, and START_MEAS, while the
measurement ends, as set or cleared, as the turn draws (R30, R101; log entry 41). -/
structure Target.ReadsAs (L : Layout) (turn : Turn) (t : Target) (r : Reg8) (v : Byte) : Prop where
  settled : t.busy = false → v = t.r8.get r
  other   : r ≠ .intStatus → r ≠ .config1 → v = t.r8.get r
  status  : t.busy = true → r = .intStatus →
    v = if turn.statusOld then t.oldStatus else (t.r8.intStatus ||| t.owed) &&& turn.landed
  start   : t.busy = true → r = .config1 →
    v = if t.phase = .ending ∧ turn.cleared = true then withoutStartMeas L t.r8.config1 else t.r8.config1

/-- What a bulk read leaves of the world: no line moved, the clock did not run back, no pointer is left. With no event
drawn between its registers, or corrupt, it leaves the world as it found it; a target that is not busy keeps every
register; a busy one keeps its 8-bit registers but INT_STATUS and START_MEAS (R60, R88, R89, R97; log entry 35). -/
structure State.BulkReadLeaves (s : State) (w : World) : Prop where
  lines   : w.lines = s.world.lines
  time    : s.around.time ≤ w.time
  pointer : w.target.ap = none
  quiet   : s.turn.gaps = [] → w = s.around.pointerless
  corrupt : s.turn.noise = .corrupt → w = s.around.pointerless
  idle    : s.around.target.busy = false →
    w.target.r8 = s.around.target.r8 ∧ w.target.r24 = s.around.target.r24 ∧ w.target.busy = false
  keeps   : ∀ r, r ≠ .config1 → r ≠ .intStatus → w.target.r8.get r = s.around.target.r8.get r
  config1 : withoutStartMeas s.params.layout w.target.r8.config1 =
    withoutStartMeas s.params.layout s.around.target.r8.config1

/-- The state a transfer leaves: the world and one line of the log; nothing else moves. -/
def State.exchanged (s : State) (w : World) (o : Observation) : State := { s with world := w, log := s.log ++ [o] }

/-- Each 16-bit mirror slot is the one its two byte slots give (R44). -/
def State.mirrorCoherent (s : State) : Bool :=
  decide (s.mirror16 = ⟨s.pairSlot .coarseOvf, s.pairSlot .clockOvf, s.pairSlot .stopMask⟩)

/-- `cfg`, once set, holds legal values only (R45, R40). -/
def State.cfgLegal (s : State) : Bool :=
  match s.cfg with
  | none => true
  | some c => c.legal

/-- While ENABLE is assigned and low the target is in reset (R361). -/
def State.heldInReset (s : State) : Bool :=
  !s.world.held s.params || decide (s.world.target = Target.inReset s.params)

/-- `mstate` is Idle and no transfer is in progress: true between host operations (R48, R60). -/
def State.atRest (s : State) : Bool := s.mstate == .idle && s.world.target.ap.isNone

/-- While `pstate` is not Off the bus is open, nothing fatal happened, and an assigned ENABLE is high
(R190, R328, R371). -/
def State.powerSound (s : State) : Bool :=
  s.pstate == .off ||
    (s.busOpen && s.fatal.isNone && (!s.params.pins.enable || s.world.lines.enable))

/-- While `pstate` is Configured, `cfg` is set and every slot CONFIGURE_RETAIN needs is present (R212, R369). -/
def State.configuredSound (s : State) : Bool :=
  s.pstate != .configured || (s.cfg.isSome && s.retained.isSome)

/-- A CONFIGURE goes on (R200). -/
def State.configuring (s : State) : Bool :=
  match s.pending with
  | some p => p.op == .configure
  | none => false

/-- `cal_periods` is `cfg`'s tier unless a CONFIGURE goes on or a fatal error cut one short (R49, R202). -/
def State.calPeriodsSound (s : State) : Bool :=
  s.fatal.isSome || s.configuring || decide (s.calPeriods = s.cfg.map Cfg.calPeriods)

/-- The 8-bit registers a verified write fills. -/
def VerifiedWrite.covers : VerifiedWrite → Reg8 → Bool
  | .byte r _, x => x == r
  | .pair p _, x => x == pairHi p || x == pairLo p

/-- The slots CONFIGURE_RETAIN reads (R212). -/
def retainedSlots : List Reg8 := [.config1, .config2, .intMask, .clockOvfH, .clockOvfL, .stopMaskH, .stopMaskL]

/-- An operation goes on only without a retry limit, the target running and `cfg` set; it has a write left, and each slot
CONFIGURE_RETAIN needs is present or still to be written (R200, R212). -/
def State.pendingSound (s : State) : Bool :=
  match s.pending with
  | none => true
  | some p =>
    s.params.retryLimit.isNone && s.busOpen && s.fatal.isNone && s.pstate != .off && s.cfg.isSome &&
      !p.writes.isEmpty &&
      retainedSlots.all fun r => (s.mirror8.get r).value.isSome || p.writes.any fun w => w.covers r

/-- The result latches agree with each other: the count counts the present slots, each delta is its slots'
difference, `norm_lsb` is unset exactly when there is no calibration (R50, R284, R291 to R293). -/
def State.latchesSound (s : State) : Bool :=
  decide (s.pulseCount = s.tof.count) && decide (s.delta = deltasOf .exact s.tof) &&
    decide (s.normLsb.isNone = (s.calCount.getD 0 == 0))

/-- What is delivered agrees with the latches: the same slots are present, each delta is its slots' difference in the
number system of FLOAT, and in exact rationals it is the latches themselves (R293, R304). -/
def State.deliverySound (s : State) : Bool :=
  decide (s.delivered.tof.toList.map Option.isSome = s.tof.toList.map Option.isSome) &&
    decide (s.delivered.delta = deltasOf s.params.float s.delivered.tof) &&
    (s.params.float != .exact || decide (s.delivered = ⟨s.calCount, s.normLsb, s.tof, s.delta⟩))

/-- The outcome is a pulse count of at most 5 or one of the five errors (R53). -/
def State.outcomeLegal (s : State) : Bool :=
  match s.outcome with
  | some (.success n) => decide (n ≤ 5)
  | _ => true

/-- The invariant of the block. -/
structure State.Inv (s : State) : Prop where
  mirrorCoherent  : s.mirrorCoherent = true
  cfgLegal        : s.cfgLegal = true
  heldInReset     : s.heldInReset = true
  atRest          : s.atRest = true
  powerSound      : s.powerSound = true
  configuredSound : s.configuredSound = true
  calPeriodsSound : s.calPeriodsSound = true
  pendingSound    : s.pendingSound = true
  latchesSound    : s.latchesSound = true
  outcomeLegal    : s.outcomeLegal = true
  deliverySound   : s.deliverySound = true

/-! ## The power table (R190) -/

/-- The power states in which R190 has an entry for the instruction. -/
def powerAllows : Instr → PState → Bool
  | .openBus, _ => true
  | .setClockSpeed _ _, _ => true
  | .powerOff, _ => true
  | .cleanup, _ => true
  | .powerOn, p => p == .off
  | .configure _, p => p != .off
  | .configureRetain, p => p != .off
  | .rd8 _, p => p != .off
  | .wr8 _ _, p => p != .off
  | .rd16 _, p => p != .off
  | .wr16 _ _, p => p != .off
  | .rd24 _, p => p != .off
  | .rdall8, p => p != .off
  | .rdall24, p => p != .off
  | .readRegs8, p => p != .off
  | .readRegs24, p => p != .off
  | .regRead _, p => p != .off
  | .regWrite _ _, p => p != .off
  | .clearStatus _, p => p != .off
  | .measure, p => p == .configured
  | .computeTofs, p => p == .configured
  | .hardRecover, p => p == .configured
  | .reservedHopF, _ => false

/-- The power state R190 gives after the instruction. -/
def powerAfter : Instr → PState → PState
  | .powerOff, _ => .off
  | .cleanup, _ => .off
  | .powerOn, _ => .on
  | .configure _, _ => .configured
  | .configureRetain, _ => .configured
  | .hardRecover, _ => .configured
  | .openBus, p => p
  | .setClockSpeed _ _, p => p
  | .rd8 _, p => p
  | .wr8 _ _, p => p
  | .rd16 _, p => p
  | .wr16 _ _, p => p
  | .rd24 _, p => p
  | .rdall8, p => p
  | .rdall24, p => p
  | .readRegs8, p => p
  | .readRegs24, p => p
  | .regRead _, p => p
  | .regWrite _ _, p => p
  | .clearStatus _, p => p
  | .measure, p => p
  | .computeTofs, p => p
  | .reservedHopF, p => p

/-- The gate of R190: the power state has an entry, no operation going on, no fatal error, `mstate` Idle, and the bus open
for every operation but OPEN, closed for OPEN (R191, R334). -/
def gateOpen (i : Instr) (s : State) : Bool :=
  powerAllows i s.pstate && s.pending.isNone && s.fatal.isNone && s.mstate == .idle &&
    (if i = .openBus then !s.busOpen else s.busOpen)

/-! ## The moments of a MEASURE (R230) -/

/-- What MEASURE needs: the gate, `cfg`, a live CONFIG1 mirror (R230), and what its COMPUTE_TOFS will need: a live
CONFIG2 mirror and agreement with `cfg` (R282). -/
structure State.MeasureReady (s : State) (c : Cfg) (c1 : Byte) (periods : Nat) : Prop where
  accepting  : s.Accepting
  configured : s.pstate = .configured
  cfg        : s.cfg = some c
  calPeriods : s.calPeriods = some periods
  config1    : s.mirror8.config1.live = some c1
  config2    : ∃ c2, s.mirror8.config2.live = some c2 ∧ mirrorAgrees s.params.layout c c1 c2 = true

/-- After step 1: TRIG sampled, if it is wired, else a warning (R56, R232). -/
def State.sampled (s : State) : State :=
  if s.params.pins.trig1 then s.begin.nextTurn.2 else s.begin.warnUnassigned .trig1

/-- TRIG is at its idle level at the sample, or not wired (R232). -/
def State.TrigIdle (s : State) (c : Cfg) : Prop :=
  s.params.pins.trig1 = true → s.sampled.world.level s.params .trig1 = trigIdle c

/-- After step 2: armed (R233). -/
def State.armedBy (s : State) (c1 : Byte) : State :=
  (s.sampled.busWr8 .config1 (armByte s.params.layout c1)).moveTo .armedWaitingTrigger

/-- The wait of step 3 (R234). -/
def State.triggerWait (s : State) (c : Cfg) (c1 : Byte) : WaitResult × State :=
  (s.armedBy c1).waitLine .trig1 (trigActive c) s.params.tTrigDeadline

/-- After step 3, the trigger seen or not wired. -/
def State.triggered (s : State) (c : Cfg) (c1 : Byte) : State :=
  (if s.params.pins.trig1 then (s.triggerWait c c1).2 else s.armedBy c1).moveTo .triggerSeen

/-- After step 4 (R245). -/
def State.pulsed (s : State) (c : Cfg) (c1 : Byte) : State :=
  (if s.params.simulate then (s.triggered c c1).simPulses c else s.triggered c c1).moveTo .waitingInterrupt

/-- The wait of step 5 (R248). -/
def State.interruptWait (s : State) (c : Cfg) (c1 : Byte) : WaitResult × State :=
  (s.pulsed c c1).waitLine .int1 s.params.intActive (interruptDeadline s.params c)

/-- After step 5: the interrupt seen, or the deadline waited out where INT is not wired (R249). -/
def State.completed (s : State) (c : Cfg) (c1 : Byte) : State :=
  if s.params.pins.int1 then (s.interruptWait c c1).2
  else ((s.pulsed c c1).warnUnassigned .int1).delay (interruptDeadline s.params c)

/-- The trigger was seen, or TRIG is not wired. -/
def State.TriggerSeen (s : State) (c : Cfg) (c1 : Byte) : Prop :=
  s.params.pins.trig1 = true → (s.triggerWait c c1).1 = .seen

/-- The worlds at which a wait samples its line, as long as it finds it inactive: one in each round, after a turn of the
environment; the last one is the one before a clock reading at or past the deadline (R235; log entry 25). -/
def World.samples (p : Params) (d t0 : Rat) : Nat → World → List World
  | 0, w => [(w.turnUnder p (some (t0 + d + p.tPollSlack))).2]
  | rounds + 1, w =>
    let u := (w.turnUnder p (some (t0 + d + p.tPollSlack))).2
    let next := (u.turnUnder p (some (t0 + d + p.tPollSlack))).2
    if t0 + d ≤ next.time then [u] else u :: World.samples p d t0 rounds next

/-- The interrupt was seen, or INT is not wired. -/
def State.InterruptSeen (s : State) (c : Cfg) (c1 : Byte) : Prop :=
  s.params.pins.int1 = true → (s.interruptWait c c1).1 = .seen

/-! ## The ten frames of a configuration (R202, R212) -/

/-- The frames of a verified write of an 8-bit register that matches at the first attempt, when the register reads
back `x` (R198). -/
def verified8 (r : Reg8) (v x : Byte) : List Observation :=
  [.sent [commandByte false true (regAddr8 r), v],
   .frame [commandByte false false (regAddr8 r), 0x00#8] [0x00#8, x]]

/-- The same of a pair (R199). -/
def verified16 (p : Pair) (v : Half) : List Observation :=
  [.sent [commandByte true true (regAddrPair p), hiByte v, loByte v],
   .frame [commandByte true false (regAddrPair p), 0x00#8, 0x00#8] [0x00#8, hiByte v, loByte v]]

/-- The mirror after the five verified configuration writes (R202, R210). -/
def configured8 (m : File8 (Slot 8)) (c1 c2 mask : Byte) (stopMask overflow : Half) : File8 (Slot 8) :=
  { m with
    config1 := Slot.fresh c1
    config2 := Slot.fresh c2
    intMask := Slot.fresh mask
    clockOvfH := Slot.fresh (hiByte overflow)
    clockOvfL := Slot.fresh (loByte overflow)
    stopMaskH := Slot.fresh (hiByte stopMask)
    stopMaskL := Slot.fresh (loByte stopMask) }

/-- The target holds a configuration: CONFIG1 up to START_MEAS, CONFIG2, INT_MASK and the two pairs (R210). -/
structure Target.Holds (L : Layout) (t : Target) (c1 c2 mask : Byte) (stopMask overflow : Half) : Prop where
  config1  : withoutStartMeas L t.r8.config1 = c1
  config2  : t.r8.config2 = c2
  intMask  : t.r8.intMask = mask
  stopMask : t.stopMask = stopMask
  overflow : t.clockOvf = overflow

/-- A safe state: one with the invariant in which no fatal error happened. -/
def State.Safe (s : State) : Prop := s.Inv ∧ s.fatal = none

end Sys2Proof.Machine
end

