-- ==== Sys2Proof/WellFormed.lean ====
section
/-! DEFINITION. What the spec asks of an instruction's operands alone, whatever the state: exec refuses an
instruction that fails it (spec/00_scope.md R12). -/

namespace Sys2Proof

open Machine

/-- REG_WRITE's operands: an 8-bit register or a pair, a value of its width, no reserved field code
(R144, R171). -/
def regWriteWellFormed (L : Layout) : RegName → Nat → Bool
  | .byte r, v => decide (v < 256) && !holdsReservedCode L r (BitVec.ofNat 8 v)
  | .pair _, v => decide (v < 65536)
  | .result _, _ => false

/-- The operands are ones the spec gives the instruction a meaning on: SET_CLOCK_SPEED asks for a positive speed
(R193), CONFIGURE for a stop mask that a 16-bit overflow can exceed (R208), REG_WRITE as above, and the reserved
code has no meaning (R148). The other operands are legal by their types. LAYOUT says where a field code stands. -/
def Instr.wellFormed (L : Layout) : Instr → Bool
  | .setClockSpeed requested _ => decide (0 < requested)
  | .configure request => decide (request.stopMask < 65535)
  | .regWrite name value => regWriteWellFormed L name value
  | .reservedHopF => false
  | .rd8 _ => true
  | .wr8 _ _ => true
  | .rd16 _ => true
  | .wr16 _ _ => true
  | .rd24 _ => true
  | .rdall8 => true
  | .rdall24 => true
  | .openBus => true
  | .powerOff => true
  | .powerOn => true
  | .configureRetain => true
  | .measure => true
  | .clearStatus _ => true
  | .readRegs8 => true
  | .readRegs24 => true
  | .computeTofs => true
  | .cleanup => true
  | .regRead _ => true
  | .hardRecover => true

end Sys2Proof
end

