-- ==== Sys2Proof/Certificates/Slice0/Obligations.lean ====
section
/-! DEFINITION. The statements for the provers, from the numbered rules of spec/. In every one, `s.turn` is the
environment's turn before the next action, `s.around` the world as that turn leaves it; a record `{ s with … }` on the
right of an equation is the frame: whatever it does not name is unchanged. -/

open Sys2Proof Sys2Proof.Machine

/-! ## Encoding -/

/-- Decoding an instruction's request gives the instruction back (R120 to R129, R140, R148). -/
def Obligations.DecodeEncodeRoundTrip : Prop :=
  ∀ i : Instr, decode (encode i) = .ok i

/-- R140: the table of bus frames, row by row, and every other (command byte, length) is refused. -/
def Obligations.LegalFramesAreTheTable : Prop :=
  (∀ r d, decode (.frame [commandByte false false (regAddr8 r), d]) = .ok (.rd8 r)) ∧
  (∀ r v, decode (.frame [commandByte false true (regAddr8 r), v]) = .ok (.wr8 r v)) ∧
  (∀ p d e, decode (.frame [commandByte true false (regAddrPair p), d, e]) = .ok (.rd16 p)) ∧
  (∀ p h l, decode (.frame [commandByte true true (regAddrPair p), h, l]) = .ok (.wr16 p (joinHalf h l))) ∧
  (∀ r d e f, decode (.frame [commandByte false false (regAddr24 r), d, e, f]) = .ok (.rd24 r)) ∧
  (∀ data, data.length = 10 → decode (.frame (0x80#8 :: data)) = .ok .rdall8) ∧
  (∀ data, data.length = 39 → decode (.frame (0x90#8 :: data)) = .ok .rdall24) ∧
  ∀ bytes i, decode (.frame bytes) = .ok i →
    ∃ c data, bytes = c :: data ∧
      ((c.toNat / 64 = 0 ∧ bytes.length = 2 ∧ c.toNat % 64 ≤ 0x09) ∨
       (c.toNat / 64 = 1 ∧ bytes.length = 2 ∧ c.toNat % 64 ≤ 0x09) ∨
       (c.toNat / 64 = 2 ∧ bytes.length = 3 ∧ (c.toNat % 64 = 4 ∨ c.toNat % 64 = 6 ∨ c.toNat % 64 = 8)) ∨
       (c.toNat / 64 = 3 ∧ bytes.length = 3 ∧ (c.toNat % 64 = 4 ∨ c.toNat % 64 = 6 ∨ c.toNat % 64 = 8)) ∨
       (c.toNat / 64 = 0 ∧ bytes.length = 4 ∧ 0x10 ≤ c.toNat % 64 ∧ c.toNat % 64 ≤ 0x1C) ∨
       (c = 0x80#8 ∧ bytes.length = 11) ∨
       (c = 0x90#8 ∧ bytes.length = 40))

/-- A frame whose address names no register is refused, whatever its flags and length (R141), and so is a write frame
addressed to a result register (R142). -/
def Obligations.ReservedAndResultFramesRefused : Prop :=
  ∀ (c : Byte) (data : List Byte),
    ((0x0A ≤ c.toNat % 64 ∧ c.toNat % 64 ≤ 0x0F) ∨ 0x1D ≤ c.toNat % 64 →
      decode (.frame (c :: data)) = .error .reservedAddress) ∧
    (c.toNat / 64 = 1 ∨ c.toNat / 64 = 3 → 0x10 ≤ c.toNat % 64 → c.toNat % 64 ≤ 0x1C →
      decode (.frame (c :: data)) = .error .resultWrite)

/-- Frames and host-operation codes written out from the spec's tables (R121 to R126, R148; 95_test_vectors 2.1). -/
def Obligations.SpecWordsDecode : Prop :=
  decode (.frame [0x00#8, 0x00#8]) = .ok (.rd8 .config1) ∧
  decode (.frame [0x42#8, 0x19#8]) = .ok (.wr8 .intStatus 0x19#8) ∧
  decode (.frame [0x86#8, 0x00#8, 0x00#8]) = .ok (.rd16 .clockOvf) ∧
  decode (.frame [0xC4#8, 0x12#8, 0x34#8]) = .ok (.wr16 .coarseOvf 0x1234#16) ∧
  decode (.frame [0x1C#8, 0x00#8, 0x00#8, 0x00#8]) = .ok (.rd24 .calibration2) ∧
  decode (.frame [0x85#8, 0x00#8, 0x00#8]) = .error .illegalShape ∧
  decode (.hop 0x6#4 []) = .ok .measure ∧
  decode (.hop 0x7#4 [.flag true]) = .ok (.clearStatus true)

/-! ## The step, reset, invariants -/

/-- A step runs the instruction the first request decodes to; an undecodable one is refused; with no request the
environment takes a turn. While an operation goes on, a step runs the rest of it instead: its verified writes that are
left, then what it does after them (R200; log entry 11). -/
def Obligations.StepRunsDecodedInstruction : Prop :=
  ∀ s : State,
    (s.pending = none →
      (∀ r rest i, s.requests = r :: rest → decode r = .ok i → step s = exec i { s with requests := rest }) ∧
      (∀ r rest e, s.requests = r :: rest → decode r = .error e → step s = .refused (.undecodable e)) ∧
      (s.requests = [] → step s = .next { s with world := s.around })) ∧
    ∀ op writes, s.pending = some ⟨op, writes⟩ →
      let b := { s with pending := none, result := .nothing, log := [] }
      (∀ u, State.writeAll op writes b = .going u → step s = .next (u.afterWrites op)) ∧
      (∀ u, State.writeAll op writes b = .ended u → step s = .next u) ∧
      ∀ r, State.writeAll op writes b ≠ .refused r

/-- What the controller reset leaves (R362); the parameters are the machine's (R365). -/
def Obligations.ControllerResetValues : Prop :=
  ∀ p : Params,
    (State.resetWith p).pstate = .off ∧ (State.resetWith p).mstate = .idle ∧
    (∀ r, (State.resetWith p).mirror8.get r = ⟨none, false⟩) ∧
    (∀ r, (State.resetWith p).mirror24.get r = ⟨none, false⟩) ∧
    (∀ q, (State.resetWith p).mirror16.get q = ⟨none, false⟩) ∧
    (State.resetWith p).cfg = none ∧ (State.resetWith p).calPeriods = none ∧
    (State.resetWith p).calCount = none ∧ (State.resetWith p).normLsb = none ∧
    (State.resetWith p).tof = ⟨none, none, none, none, none⟩ ∧
    (State.resetWith p).delta = ⟨none, none, none, none⟩ ∧ (State.resetWith p).pulseCount = 0 ∧
    (State.resetWith p).delivered = ⟨none, none, ⟨none, none, none, none, none⟩, ⟨none, none, none, none⟩⟩ ∧
    (State.resetWith p).outcome = none ∧ (State.resetWith p).fatal = none ∧
    (State.resetWith p).busOpen = false ∧ (State.resetWith p).busSpeed = none ∧
    (State.resetWith p).pending = none ∧
    (State.resetWith p).params = p

/-- ENABLE low resets the target: RESET_REGS, not busy, not wedged, TRIG idle for the reset polarity, INT idle whatever
RESET_REGS holds; while ENABLE stays low no turn of the environment changes it (R361). -/
def Obligations.EnableLowHoldsTargetReset : Prop :=
  ∀ (s : State) (turn : Turn) (ceil : Option Rat), s.params.pins.enable = true →
    let w := (s.driveLine .enable false).world
    w.lines = { s.world.lines with enable := false } ∧
    w.target.r8 = s.params.reset8 ∧ w.target.r24 = s.params.reset24 ∧
    w.target.busy = false ∧ w.target.wedged = false ∧ w.target.ap = none ∧
    w.level s.params .trig1 = trigEdgeBit s.params.layout s.params.reset8.config1 ∧
    w.level s.params .int1 = !s.params.intActive ∧
    (w.play s.params ceil turn).target = w.target ∧ (w.play s.params ceil turn).lines = w.lines

/-- The invariant of Safety.lean holds right after reset. -/
def Obligations.ResetSatisfiesInvariant : Prop := State.reset.Inv

/-- Every step keeps the invariant of Safety.lean, from every state that has it. -/
def Obligations.EveryStepKeepsInvariant : Prop :=
  ∀ s t : State, s.Inv → step s = .next t → t.Inv

/-- No step writes a parameter or turns the clock back (R335, R365). -/
def Obligations.ClockForwardParametersFixed : Prop :=
  ∀ s t : State, step s = .next t → t.params = s.params ∧ s.world.time ≤ t.world.time

/-- R190: an operation with no entry for the power state, with another one going on, with a fatal error latched, `mstate`
not Idle or the bus not open (for OPEN: not closed) is refused; and `pstate` moves only as the table says, but for a
fatal stop of an operation other than OPEN, which leaves Off (R328), and for an operation that goes on (R200), which
leaves the target running and Configured once it ends. -/
def Obligations.PowerStateFollowsTable : Prop :=
  (∀ (i : Instr) (s : State),
    (gateOpen i s = false → ∃ r, exec i s = .refused r) ∧
    ∀ t, exec i s = .next t →
      (t.fatal = none → t.pending = none → t.pstate = powerAfter i s.pstate) ∧
      (t.fatal = none → t.pending ≠ none → t.pstate ≠ .off) ∧
      (t.fatal ≠ none → i ≠ .openBus → t.pstate = .off)) ∧
  ∀ (s t : State), s.pending ≠ none → s.fatal = none → s.busOpen = true → step s = .next t →
    (t.fatal = none → t.pending = none → t.pstate = .configured) ∧
    (t.fatal = none → t.pending ≠ none → t.pstate = s.pstate) ∧ (t.fatal ≠ none → t.pstate = .off)

/-- R46: `cfg` changes only inside CONFIGURE, which replaces it whole, at its beginning (R202). -/
def Obligations.CfgChangesOnlyInConfigure : Prop :=
  (∀ (i : Instr) (s t : State), exec i s = .next t →
    ((∀ q, i ≠ .configure q) → t.cfg = s.cfg) ∧
    ∀ q, i = .configure q → t.cfg = some (normalise s.params q).1) ∧
  ∀ s t : State, s.pending ≠ none → step s = .next t → t.cfg = s.cfg

/-- R54: once `fatal` is not `none` every operation is refused and no step clears it; it is `none` after the controller
reset. No operation goes on in a state with a fatal error: that is part of the invariant (`pendingSound`). -/
def Obligations.FatalRefusesEverything : Prop :=
  (∀ (i : Instr) (s : State), s.fatal ≠ none → ∃ r, exec i s = .refused r) ∧
  (∀ (s t : State), s.pendingSound = true → s.fatal ≠ none → step s = .next t → t.fatal = s.fatal) ∧
  ∀ p, (State.resetWith p).fatal = none

/-- Operands the spec gives no meaning on are refused (R24, R129, R144, R193, R208). -/
def Obligations.IllFormedOperandsRefused : Prop :=
  ∀ (i : Instr) (s : State), i.wellFormed s.params.layout = false → ∃ r, exec i s = .refused r

/-- The reserved host-operation code is refused in every state (R148, R150). -/
def Obligations.ReservedHopRefused : Prop :=
  ∀ s : State, exec .reservedHopF s = .refused .reservedHop

/-! ## Bus transactions -/

/-- RD8 completes: byte 0 is discarded, byte 1 is yielded, the register's value on a clean transfer; but for INT_STATUS and
START_MEAS while the target is busy, where any mixture of old and new may be read, as the turn draws (R101; log entry 41);
neither the target nor the mirror changes (R160, R89). -/
def Obligations.Rd8YieldsRegister : Prop :=
  ∀ (s : State) (r : Reg8), s.Accessible →
    ∃ b v, (s.turn.noise = .clean → b = 0x00#8 ∧ s.around.target.ReadsAs s.params.layout s.turn r v) ∧
      exec (.rd8 r) s = .next { s with
        world := s.around.pointerless
        result := .byte v
        log := [.frame [(regAddr8 r).setWidth 8, 0x00#8] [b, v]] }

/-- WR8 completes: a byte reaches the register, the one sent on a clean transfer; INT_STATUS is cleared by it, CONFIG1
may arm, any other register holds it (R161, R96, R97). -/
def Obligations.Wr8StoresByte : Prop :=
  ∀ (s : State) (r : Reg8) (v : Byte), s.Accessible →
    ∃ b, (s.turn.noise = .clean → b = v) ∧
      exec (.wr8 r v) s = .next { s with
        world := s.stored8 r b
        result := .nothing
        log := [.sent [0x40#8 ||| (regAddr8 r).setWidth 8, v]] } ∧
      (r ≠ .intStatus → (s.stored8 r b).target.r8.get r = b)

/-- RD16 completes: the `_H` byte comes first; the pair's value on a clean transfer (R162). -/
def Obligations.Rd16YieldsPair : Prop :=
  ∀ (s : State) (p : Pair), s.Accessible →
    ∃ b v, (s.turn.noise = .clean → b = 0x00#8 ∧
        v = joinHalf (s.around.target.r8.get (pairHi p)) (s.around.target.r8.get (pairLo p))) ∧
      exec (.rd16 p) s = .next { s with
        world := s.around.pointerless
        result := .half v
        log := [.frame [0x80#8 ||| (regAddrPair p).setWidth 8, 0x00#8, 0x00#8] [b, hiByte v, loByte v]] }

/-- WR16 completes: both registers of the pair hold the value that arrived, the one sent on a clean transfer; no other
register changes (R163). -/
def Obligations.Wr16StoresPair : Prop :=
  ∀ (s : State) (p : Pair) (v : Half), s.Accessible →
    ∃ b, (s.turn.noise = .clean → b = v) ∧
      exec (.wr16 p v) s = .next { s with
        world := s.stored16 p b
        result := .nothing
        log := [.sent [0xC0#8 ||| (regAddrPair p).setWidth 8, hiByte v, loByte v]] } ∧
      (s.stored16 p b).target.r8 =
        (s.around.target.r8.set (pairHi p) (hiByte b)).set (pairLo p) (loByte b) ∧
      (s.stored16 p b).target.r24 = s.around.target.r24

/-- RD24 completes: three bytes, most significant first; on a clean transfer the register's value, and while the target
is busy the one from before the arming, the one it holds, or the one the measurement may have written by now (R164,
U9). -/
def Obligations.Rd24YieldsResult : Prop :=
  ∀ (s : State) (r : Reg24), s.Accessible →
    ∃ b v, (s.turn.noise = .clean → b = 0x00#8 ∧
        (s.around.target.busy = false → v = s.around.target.r24.get r) ∧
        (s.around.target.busy = true →
          v = s.around.target.old24.get r ∨ v = s.around.target.r24.get r ∨
            v = (s.around.target.landed s.params.layout).get r)) ∧
      exec (.rd24 r) s = .next { s with
        world := s.around.pointerless
        result := .word v
        log := [.frame [(regAddr24 r).setWidth 8, 0x00#8, 0x00#8, 0x00#8] (b :: bytes24 v)] }

/-- RDALL8 completes: ten registers, in address order; on a clean transfer to a target that is not busy, their values;
while it is busy each is, up to START_MEAS and but for INT_STATUS. The environment may act between two registers of a
busy target, but moves no line and, of its 8-bit registers, at most INT_STATUS and START_MEAS; a corrupt read leaves the
world as it was (R165, R88, R89, R97; log entry 35). -/
def Obligations.Rdall8YieldsBlock : Prop :=
  ∀ s : State, s.Accessible →
    ∃ (rx : List Byte) (w : World), rx.length = 11 ∧
      (s.turn.noise = .clean → rx.headD 0 = 0x00#8 ∧
        (s.around.target.busy = false → rx = 0x00#8 :: s.around.target.r8.toList) ∧
        (∀ r, r ≠ .config1 → r ≠ .intStatus → (file8OfBytes rx.tail).get r = s.around.target.r8.get r) ∧
        withoutStartMeas s.params.layout ((file8OfBytes rx.tail).get .config1) =
          withoutStartMeas s.params.layout s.around.target.r8.config1) ∧
      exec .rdall8 s = .next { s with
        world := w
        result := .block8 (file8OfBytes rx.tail)
        log := [.frame (0x80#8 :: zeros 10) rx] } ∧
        s.BulkReadLeaves w

/-- RDALL24 completes: thirteen registers, in address order, three bytes each, most significant first; on a clean
transfer to a target that is not busy, their values (R166). The environment may act between two registers of a busy
target, but moves no line and, of its 8-bit registers, at most INT_STATUS and START_MEAS; a corrupt read leaves the world
as it was (R88, R89, R97; log entry 35). -/
def Obligations.Rdall24YieldsBlock : Prop :=
  ∀ s : State, s.Accessible →
    ∃ (rx : List Byte) (w : World), rx.length = 40 ∧
      (s.turn.noise = .clean → s.around.target.busy = false →
        rx = 0x00#8 :: s.around.target.r24.toList.flatMap bytes24 ∧
        file24OfBytes rx.tail = s.around.target.r24) ∧
      exec .rdall24 s = .next { s with
        world := w
        result := .block24 (file24OfBytes rx.tail)
        log := [.frame (0x90#8 :: zeros 39) rx] } ∧
        s.BulkReadLeaves w

/-- R167: a value written and then read comes back, over clean transfers, for every 8-bit register but INT_STATUS and
for every pair; for CONFIG1 up to START_MEAS. -/
def Obligations.WriteThenReadYieldsWritten : Prop :=
  (∀ (s t : State) (r : Reg8) (v : Byte), s.Accessible → r ≠ .intStatus →
    holdsReservedCode s.params.layout r v = false →
    s.turn.noise = .clean → exec (.wr8 r v) s = .next t → t.turn.noise = .clean →
    ∃ u x, exec (.rd8 r) t = .next u ∧ u.result = .byte x ∧
      if r = .config1 then withoutStartMeas s.params.layout x = withoutStartMeas s.params.layout v else x = v) ∧
  ∀ (s t : State) (p : Pair) (v : Half), s.Accessible →
    s.turn.noise = .clean → exec (.wr16 p v) s = .next t → t.turn.noise = .clean →
    ∃ u, exec (.rd16 p) t = .next u ∧ u.result = .half v

/-- R27: the two bytes of a pair, read one after the other, make the value RD16 reads; `_H` is bits 15:8. -/
def Obligations.PairIsItsTwoBytes : Prop :=
  (∀ h l : Byte, (joinHalf h l).toNat = h.toNat * 256 + l.toNat) ∧
  (∀ p, (regAddrPair p).toNat = (regAddr8 (pairHi p)).toNat ∧
    (regAddr8 (pairLo p)).toNat = (regAddr8 (pairHi p)).toNat + 1) ∧
  ∀ (s t u x : State) (p : Pair), s.turn.noise = .clean → t.turn.noise = .clean → u.turn.noise = .clean →
    exec (.rd8 (pairHi p)) s = .next t → exec (.rd8 (pairLo p)) t = .next u → exec (.rd16 p) u = .next x →
    ∃ h l, t.result = .byte h ∧ u.result = .byte l ∧ x.result = .half (joinHalf h l)

/-- A clean write to INT_STATUS clears the bits written as 1 and changes no other register (R35, R89). Of the status bits
that a measurement in flight has raised it clears those that have landed, as the turn draws, and what a read may still see
of the old ones, which is the model's reading of R101 (log entry 41). -/
def Obligations.StatusWriteClearsOnes : Prop :=
  ∀ (s : State) (v : Byte), s.Accessible → s.turn.noise = .clean →
    ∃ t, exec (.wr8 .intStatus v) s = .next t ∧
      t.world = { s.around with target := { s.around.target with
        r8 := { s.around.target.r8 with intStatus := s.around.target.r8.intStatus &&& ~~~v }
        owed := s.around.target.owed &&& ~~~(v &&& s.turn.landed)
        oldStatus := s.around.target.oldStatus &&& ~~~v
        ap := none } }

/-- A clean write of CONFIG1 with START_MEAS set: an idle target that is not wedged arms, with every result register
and INT_STATUS zero; a wedged one arms nothing; a busy one ignores it, restarts or wedges, as the environment draws
(R380, U7); without START_MEAS nothing arms (R30, R96, R260, R267). -/
def Obligations.StartMeasArmsTarget : Prop :=
  ∀ (s t : State) (v : Byte), s.turn.noise = .clean → exec (.wr8 .config1 v) s = .next t →
    t.world.target.r8.config1 = v ∧
    (startMeasBit s.params.layout v = true → s.around.target.wedged = false → s.around.target.busy = false →
      t.world.target.phase = .armed ∧ t.world.target.busy = true ∧ t.world.target.r8.intStatus = 0x00#8 ∧
      t.world.target.old24 = s.around.target.r24 ∧ t.world.target.new24 = s.turn.results ∧
      t.world.target.oldStatus = s.around.target.r8.intStatus ∧ t.world.target.owed = 0x00#8 ∧
      ∀ r, t.world.target.r24.get r = 0x000000#24) ∧
    (startMeasBit s.params.layout v = true → s.around.target.wedged = true →
      t.world.target.phase = s.around.target.phase ∧ t.world.target.r24 = s.around.target.r24) ∧
    (startMeasBit s.params.layout v = false →
      t.world.target.phase = s.around.target.phase ∧ t.world.target.r24 = s.around.target.r24 ∧
      t.world.target.r8.intStatus = s.around.target.r8.intStatus) ∧
    (startMeasBit s.params.layout v = true → s.around.target.wedged = false → s.around.target.busy = true →
      (s.turn.rearm = .ignored →
        t.world.target.phase = s.around.target.phase ∧ t.world.target.r24 = s.around.target.r24 ∧
        t.world.target.r8.intStatus = s.around.target.r8.intStatus ∧ t.world.target.wedged = false) ∧
      (s.turn.rearm = .restarts →
        t.world.target.phase = .armed ∧ t.world.target.r8.intStatus = 0x00#8 ∧
        ∀ r, t.world.target.r24.get r = 0x000000#24) ∧
      (s.turn.rearm = .wedges → t.world.target.wedged = true ∧ t.world.target.phase = s.around.target.phase))

/-- A write, corrupt or clean, changes no 8-bit register it does not address, but that a CONFIG1 write may clear
INT_STATUS by arming; only a CONFIG1 write changes a result register; and no line moves (R97, R89). -/
def Obligations.WriteTouchesOnlyAddressed : Prop :=
  (∀ (s t : State) (r x : Reg8) (v : Byte), exec (.wr8 r v) s = .next t → x ≠ r →
    (r = .config1 → x ≠ .intStatus) → t.world.target.r8.get x = s.around.target.r8.get x) ∧
  (∀ (s t : State) (r : Reg8) (v : Byte), exec (.wr8 r v) s = .next t → r ≠ .config1 →
    t.world.target.r24 = s.around.target.r24 ∧ t.world.lines = s.world.lines) ∧
  (∀ (s t : State) (v : Byte), exec (.wr8 .config1 v) s = .next t → t.world.lines = s.world.lines)

/-! ## Register access operations -/

/-- READ_REGS8 completes: one RDALL8 fills the ten 8-bit slots and the three 16-bit slots, none stale (R168); what
it leaves of the world is what RDALL8 leaves (R88, R89; log entry 35). -/
def Obligations.ReadRegs8FillsMirror : Prop :=
  ∀ s : State, s.Accessible →
    ∃ (rx : List Byte) (w : World), rx.length = 11 ∧
      (s.turn.noise = .clean → s.around.target.busy = false → file8OfBytes rx.tail = s.around.target.r8) ∧
      exec .readRegs8 s = .next { s with
        world := w
        mirror8 := (file8OfBytes rx.tail).map fun v => ⟨some v, false⟩
        mirror16 :=
          ⟨⟨some (joinHalf (byteAt rx 5) (byteAt rx 6)), false⟩, ⟨some (joinHalf (byteAt rx 7) (byteAt rx 8)), false⟩,
           ⟨some (joinHalf (byteAt rx 9) (byteAt rx 10)), false⟩⟩
        result := .nothing
        log := [.frame (0x80#8 :: zeros 10) rx] } ∧
        s.BulkReadLeaves w

/-- READ_REGS24 completes: one RDALL24 fills the thirteen 24-bit slots, none stale (R169); what it leaves of the world
is what RDALL24 leaves (R88, R89; log entry 35). -/
def Obligations.ReadRegs24FillsMirror : Prop :=
  ∀ s : State, s.Accessible →
    ∃ (rx : List Byte) (w : World), rx.length = 40 ∧
      (s.turn.noise = .clean → s.around.target.busy = false → file24OfBytes rx.tail = s.around.target.r24) ∧
      exec .readRegs24 s = .next { s with
        world := w
        mirror24 := (file24OfBytes rx.tail).map fun v => ⟨some v, false⟩
        result := .nothing
        log := [.frame (0x90#8 :: zeros 39) rx] } ∧
        s.BulkReadLeaves w

/-- REG_READ completes in its three forms: one transfer of the register's width, its value yielded and put in the
mirror, not stale; an 8-bit register of a pair refreshes the pair's 16-bit slot (R170). What a clean read of an 8-bit
register gives while the target is busy is what RD8 gives (R101; log entry 41). -/
def Obligations.RegReadYieldsAndMirrors : Prop :=
  ∀ s : State, s.Accessible →
    (∀ r : Reg8, ∃ b v, (s.turn.noise = .clean → s.around.target.ReadsAs s.params.layout s.turn r v) ∧
      exec (.regRead (.byte r)) s = .next { s with
        world := s.around.pointerless
        mirror8 := s.mirror8.set r ⟨some v, false⟩
        mirror16 := match pairOf r with
          | some p => s.mirror16.set p
              (joinSlots ((s.mirror8.set r ⟨some v, false⟩).get (pairHi p))
                ((s.mirror8.set r ⟨some v, false⟩).get (pairLo p)))
          | none => s.mirror16
        result := .byte v
        log := [.frame [(regAddr8 r).setWidth 8, 0x00#8] [b, v]] }) ∧
    (∀ p : Pair, ∃ b v, (s.turn.noise = .clean →
        v = joinHalf (s.around.target.r8.get (pairHi p)) (s.around.target.r8.get (pairLo p))) ∧
      exec (.regRead (.pair p)) s = .next { s with
        world := s.around.pointerless
        mirror8 := (s.mirror8.set (pairHi p) ⟨some (hiByte v), false⟩).set (pairLo p) ⟨some (loByte v), false⟩
        mirror16 := s.mirror16.set p ⟨some v, false⟩
        result := .half v
        log := [.frame [0x80#8 ||| (regAddrPair p).setWidth 8, 0x00#8, 0x00#8] [b, hiByte v, loByte v]] }) ∧
    (∀ r : Reg24, ∃ b v, (s.turn.noise = .clean → s.around.target.busy = false → v = s.around.target.r24.get r) ∧
      exec (.regRead (.result r)) s = .next { s with
        world := s.around.pointerless
        mirror24 := s.mirror24.set r ⟨some v, false⟩
        result := .word v
        log := [.frame [(regAddr24 r).setWidth 8, 0x00#8, 0x00#8, 0x00#8] (b :: bytes24 v)] })

/-- REG_WRITE completes. An 8-bit register: one WR8; INT_STATUS's slot is not written, CONFIG1's slot gets START_MEAS as
0, any other the value sent. The byte sent has each bit no field has as 0, the model's reading of R144 (log entry 24),
and PARITY_EN of CONFIG1 as 0, its reading of R41 and D53 beside R171's "value sent" (log entry 36). A pair: one WR16,
both bytes and the 16-bit slot (R171). -/
def Obligations.RegWriteSendsAndMirrors : Prop :=
  ∀ (s : State) (v : Nat), s.Accessible →
    (∀ r : Reg8, v < 256 → holdsReservedCode s.params.layout r (BitVec.ofNat 8 v) = false →
      let sent := BitVec.ofNat 8 v &&& sentBits s.params.layout r
      let slot := ⟨some (if r = .config1 then withoutStartMeas s.params.layout sent else sent), false⟩
      ∃ b, (s.turn.noise = .clean → b = sent) ∧ (r = .config1 → parityBit s.params.layout sent = false) ∧
        exec (.regWrite (.byte r) v) s = .next { s with
          world := s.stored8 r b
          mirror8 := if r = .intStatus then s.mirror8 else s.mirror8.set r slot
          mirror16 := match pairOf r with
            | some p => s.mirror16.set p
                (joinSlots ((s.mirror8.set r slot).get (pairHi p)) ((s.mirror8.set r slot).get (pairLo p)))
            | none => s.mirror16
          result := .nothing
          log := [.sent [0x40#8 ||| (regAddr8 r).setWidth 8, sent]] }) ∧
    (∀ p : Pair, v < 65536 →
      let sent := BitVec.ofNat 16 v
      ∃ b, (s.turn.noise = .clean → b = sent) ∧
        exec (.regWrite (.pair p) v) s = .next { s with
          world := s.stored16 p b
          mirror8 := (s.mirror8.set (pairHi p) ⟨some (hiByte sent), false⟩).set (pairLo p) ⟨some (loByte sent), false⟩
          mirror16 := s.mirror16.set p ⟨some sent, false⟩
          result := .nothing
          log := [.sent [0xC0#8 ||| (regAddrPair p).setWidth 8, hiByte sent, loByte sent]] })

/-! ## Power and configuration -/

/-- OPEN completes. If the transport opens, the bus is open and every assigned output is driven low, in order, and no
other line moves (R58, R191), an assigned ENABLE resetting the target; else BusUnavailable is latched and no line moves
(R192, R328). -/
def Obligations.OpenTakesBusOrFails : Prop :=
  ∀ s : State, s.pending = none → s.fatal = none → s.busOpen = false → s.mstate = .idle →
    (s.turn.opens = true → ∃ t, exec .openBus s = .next t ∧
      t = { s with
        busOpen := true
        world := t.world
        result := .nothing
        log := (if s.params.pins.enable then [.drive .enable false] else []) ++
          (if s.params.pins.oscEnable then [.drive .oscEnable false] else []) ++
          (if s.params.pins.start then [.drive .start false] else []) ++
          (if s.params.pins.stop then [.drive .stop false] else []) } ∧
      t.world.lines = { s.world.lines with
        enable := !s.params.pins.enable && s.world.lines.enable
        oscEnable := !s.params.pins.oscEnable && s.world.lines.oscEnable
        start := !s.params.pins.start && s.world.lines.start
        stop := !s.params.pins.stop && s.world.lines.stop } ∧
      (s.params.pins.enable = true → t.world.target = Target.inReset s.params)) ∧
    (s.turn.opens = false → exec .openBus s = .next { s with
      world := s.around
      fatal := some .busUnavailable
      result := .failed .busUnavailable
      log := [.failed .busUnavailable] })

/-- SET_CLOCK_SPEED completes: without `force` the request is clamped to [min, rated maximum], with a warning when that
changes it; with `force` only the absolute ceiling clamps, and a speed above the rated maximum warns (R193). -/
def Obligations.SetClockSpeedClamps : Prop :=
  ∀ (s : State) (q : Rat) (force : Bool), s.Accepting → 0 < q →
    s.params.busMin ≤ s.params.busRated → s.params.busRated ≤ s.params.busCeiling →
    ∃ speed ws, exec (.setClockSpeed q force) s = .next { s with
        busSpeed := some speed, result := .speed speed, log := ws.map .warned } ∧
      (force = false → q < s.params.busMin → speed = s.params.busMin ∧ ws = [.speedClamped]) ∧
      (force = false → s.params.busMin ≤ q → q ≤ s.params.busRated → speed = q ∧ ws = []) ∧
      (force = false → s.params.busRated < q → speed = s.params.busRated ∧ ws = [.speedClamped]) ∧
      (force = true → q ≤ s.params.busRated → speed = q ∧ ws = []) ∧
      (force = true → s.params.busRated < q → q ≤ s.params.busCeiling → speed = q ∧ ws = [.aboveRatedMax]) ∧
      (force = true → s.params.busCeiling < q → speed = s.params.busCeiling ∧ ws = [.aboveCeiling])

/-- OFF completes: an assigned ENABLE goes low and the target is in reset, an unassigned one only warns; at least
T_RESET_MIN passes; every mirror slot keeps its value and is stale; `pstate` is Off; all else stays (R195, R43,
R364). -/
def Obligations.OffResetsTargetAndMarksStale : Prop :=
  ∀ s : State, s.Accepting →
    ∃ t, exec .powerOff s = .next t ∧
      t = { s with
        world := t.world
        mirror8 := s.mirror8.map fun x => { x with stale := true }
        mirror24 := s.mirror24.map fun x => { x with stale := true }
        mirror16 := s.mirror16.map fun x => { x with stale := true }
        pstate := .off
        result := .nothing
        log := t.log } ∧
      (s.params.pins.enable = true →
        t.world.target = Target.inReset s.params ∧ t.world.lines = { s.world.lines with enable := false } ∧
        t.log = [.drive .enable false, .power .off]) ∧
      (s.params.pins.enable = false →
        t.world.lines = s.world.lines ∧ t.log = [.warned (.unassigned .enable), .power .off]) ∧
      s.world.time + s.params.tResetMin ≤ t.world.time

/-- ON completes: the clock enable and then ENABLE go high where assigned, at least T_SETTLE passes, `pstate` is On; all
else of the controller stays (R56, R196, R371). That it warns of each of the two that is unassigned, which R196 does not
say, is the model's reading of R56 (log entry 32). Unless ENABLE was low for less than T_RESET_MIN (R372), the target's
8-bit registers but CONFIG1 and INT_STATUS are as before. -/
def Obligations.OnReleasesTarget : Prop :=
  ∀ s : State, s.Accepting → s.pstate = .off →
    ∃ t, exec .powerOn s = .next t ∧
      t = { s with
        world := t.world
        pstate := .on
        result := .nothing
        log := [if s.params.pins.oscEnable then .drive .oscEnable true else .warned (.unassigned .oscEnable),
          if s.params.pins.enable then .drive .enable true else .warned (.unassigned .enable), .power .on] } ∧
      t.world.lines = { s.world.lines with
        oscEnable := s.params.pins.oscEnable || s.world.lines.oscEnable
        enable := s.params.pins.enable || s.world.lines.enable } ∧
      s.world.time + s.params.tSettle ≤ t.world.time ∧
      ((s.params.pins.enable = true → s.world.lines.enable = true ∨
          s.world.lowSince + s.params.tResetMin ≤ s.world.time) →
        ∀ r, r ≠ .config1 → r ≠ .intStatus → t.world.target.r8.get r = s.world.target.r8.get r)

/-- CLEANUP completes: OFF, then the other assigned outputs low, the bus released; no other line moves (R214, R388). That
it warns of ENABLE and OSC_ENABLE where they are unassigned, and not of START and STOP, is the model's reading of R56 (log
entry 32). -/
def Obligations.CleanupReleasesEverything : Prop :=
  ∀ s : State, s.Accepting →
    ∃ t, exec .cleanup s = .next t ∧
      t = { s with
        world := t.world
        mirror8 := s.mirror8.map fun x => { x with stale := true }
        mirror24 := s.mirror24.map fun x => { x with stale := true }
        mirror16 := s.mirror16.map fun x => { x with stale := true }
        pstate := .off
        busOpen := false
        result := .nothing
        log := [if s.params.pins.enable then .drive .enable false else .warned (.unassigned .enable), .power .off,
            if s.params.pins.oscEnable then .drive .oscEnable false else .warned (.unassigned .oscEnable)] ++
          (if s.params.pins.start then [.drive .start false] else []) ++
          (if s.params.pins.stop then [.drive .stop false] else []) } ∧
      t.world.lines = { s.world.lines with
        enable := !s.params.pins.enable && s.world.lines.enable
        oscEnable := !s.params.pins.oscEnable && s.world.lines.oscEnable
        start := !s.params.pins.start && s.world.lines.start
        stop := !s.params.pins.stop && s.world.lines.stop } ∧
      (s.params.pins.enable = true → t.world.target = Target.inReset s.params) ∧
      s.world.time + s.params.tResetMin ≤ t.world.time

/-- What CONFIGURE stores is legal: modes, tiers, cycles, stops in range, the overflow above the stop mask (R45, R40);
modes 1 and 2 and stop counts 1 to 5 pass unchanged, and any other becomes 1 with a warning (R205, R206); the bools pass
(R207). -/
def Obligations.NormalisedRequestIsLegal : Prop :=
  ∀ (p : Params) (q : ConfigRequest),
    let c := (normalise p q).1
    let ws := (normalise p q).2
    (stopMaskRefused q = false → c.legal = true) ∧
    (q.measMode = 1 ∨ q.measMode = 2 → (c.measMode : Int) = q.measMode ∧ .badMeasMode ∉ ws) ∧
    (q.measMode ≠ 1 → q.measMode ≠ 2 → c.measMode = 1 ∧ .badMeasMode ∈ ws) ∧
    (1 ≤ q.numStop → q.numStop ≤ 5 → (c.numStop : Int) = q.numStop ∧ .badNumStop ∉ ws) ∧
    (q.numStop < 1 ∨ 5 < q.numStop → c.numStop = 1 ∧ .badNumStop ∈ ws) ∧
    c.forceCal = q.forceCal ∧ c.trigFalling = q.trigFalling ∧ c.startFalling = q.startFalling ∧
    c.stopFalling = q.stopFalling

/-- R203: the calibration periods of the record are the least tier not below the request; a request above 40 takes 40 and
one below 1 takes 2, each with a warning. -/
def Obligations.CalibrationPeriodsRoundUp : Prop :=
  ∀ (p : Params) (q : ConfigRequest),
    let r := q.calPeriods
    let c := (normalise p q).1
    let ws := (normalise p q).2
    (r ≤ 2 → c.calPeriods = 2) ∧ (3 ≤ r → r ≤ 10 → c.calPeriods = 10) ∧
    (11 ≤ r → r ≤ 20 → c.calPeriods = 20) ∧ (21 ≤ r → c.calPeriods = 40) ∧
    (.calPeriodsBelow ∈ ws ↔ r < 1) ∧ (.calPeriodsAbove ∈ ws ↔ 40 < r)

/-- R204: the averaging cycles of the record are the least power of two not below the request, clamped to 1 and 128 with a
warning. -/
def Obligations.AveragingCyclesRoundUp : Prop :=
  ∀ (p : Params) (q : ConfigRequest),
    let a := q.avgCycles
    let c := (normalise p q).1
    let ws := (normalise p q).2
    (a < 1 → c.avgCycles = 1) ∧ (128 < a → c.avgCycles = 128) ∧
    (1 ≤ a → a ≤ 128 → ∃ k ≤ 7, c.avgCycles = 2 ^ k ∧ a ≤ 2 ^ k ∧ ∀ j : Nat, a ≤ 2 ^ j → k ≤ j) ∧
    (.avgCyclesBelow ∈ ws ↔ a < 1) ∧ (.avgCyclesAbove ∈ ws ↔ 128 < a)

/-- R208, R209: stop mask and overflow are brought into 16 bits, each with its warning; a time is rounded up to whole clock
periods and its clamping warned of as such (R135); an overflow at or below the mask becomes the mask plus one with a
warning. -/
def Obligations.StopMaskAndOverflowNormalised : Prop :=
  ∀ (p : Params) (q : ConfigRequest) (n : Int), q.stopMask < 65535 →
    (q.overflow = .count n ∨ ∃ t, q.overflow = .timeout t ∧ n = (t / p.clockPeriod).ceil) →
    let ws := (normalise p q).2
    let mask := if q.stopMask < 0 then 0 else q.stopMask
    let count := if n < 0 then 0 else if 65535 < n then 65535 else n
    ((normalise p q).1.stopMask.toNat : Int) = mask ∧
    ((normalise p q).1.overflow.toNat : Int) = (if count ≤ mask then mask + 1 else count) ∧
    (.overflowRaised ∈ ws ↔ count ≤ mask) ∧ (.stopMaskClamped ∈ ws ↔ q.stopMask < 0) ∧
    (.overflowClamped ∈ ws ↔ q.overflow = .count n ∧ (n < 0 ∨ 65535 < n)) ∧
    (.timeoutClamped ∈ ws ↔ q.overflow ≠ .count n ∧ (n < 0 ∨ 65535 < n))

/-- R131, R132: the CONFIG1 and CONFIG2 bytes carry each field of a legal record in its place, every other bit 0, for every
LAYOUT that can be. -/
def Obligations.ConfigBytesCarryFields : Prop :=
  ∀ (L : Layout) (c : Cfg), L.wf = true → c.legal = true →
    forceCalBit L (config1Of L c) = c.forceCal ∧ parityBit L (config1Of L c) = false ∧
    trigEdgeBit L (config1Of L c) = c.trigFalling ∧ stopEdgeBit L (config1Of L c) = c.stopFalling ∧
    startEdgeBit L (config1Of L c) = c.startFalling ∧ (measModeCode L (config1Of L c)).toNat + 1 = c.measMode ∧
    startMeasBit L (config1Of L c) = false ∧ config1Of L c &&& ~~~ sentBits L .config1 = 0x00#8 ∧
    (tierCode L (config2Of L c) = 0#2 ↔ c.calPeriods = 2) ∧ (tierCode L (config2Of L c) = 1#2 ↔ c.calPeriods = 10) ∧
    (tierCode L (config2Of L c) = 2#2 ↔ c.calPeriods = 20) ∧ (tierCode L (config2Of L c) = 3#2 ↔ c.calPeriods = 40) ∧
    cyclesOfCode (avgCode L (config2Of L c)) = c.avgCycles ∧
    (stopCode L (config2Of L c)).toNat + 1 = c.numStop ∧ config2Of L c &&& ~~~ sentBits L .config2 = 0x00#8

/-- CONFIGURE completes when the bus answers cleanly: the ten frames of R202 in its order, each write verified at the
first attempt; `cfg` and `cal_periods` set, `pstate` Configured; the written slots live, every other slot untouched;
the target holds the configuration (R202, R210). A bit of INT_MASK_VALUE with no field is sent as 0 (R28, log entry
24). -/
def Obligations.ConfigureWritesAndVerifies : Prop :=
  ∀ (s : State) (q : ConfigRequest), s.Accessible → s.params.layout.wf = true → stopMaskRefused q = false →
    s.CleanNext 10 →
    let c := (normalise s.params q).1
    let L := s.params.layout
    let mask := s.params.intMaskValue &&& sentBits L .intMask
    ∃ t x, exec (.configure q) s = .next t ∧ withoutStartMeas L x = config1Of L c ∧
      t = { s with
        world := t.world
        cfg := some c
        calPeriods := some c.calPeriods
        pstate := .configured
        mirror8 := configured8 s.mirror8 (config1Of L c) (config2Of L c) mask c.stopMask c.overflow
        mirror16 := { s.mirror16 with clockOvf := ⟨some c.overflow, false⟩, stopMask := ⟨some c.stopMask, false⟩ }
        result := .nothing
        log := (normalise s.params q).2.map .warned ++
          verified8 .config1 (config1Of L c) x ++ verified8 .config2 (config2Of L c) (config2Of L c) ++
          verified8 .intMask mask mask ++ verified16 .stopMask c.stopMask ++
          verified16 .clockOvf c.overflow ++ [.power .configured] } ∧
      t.world.target.Holds L (config1Of L c) (config2Of L c) mask c.stopMask c.overflow ∧
      t.world.target.coarseOvf = s.world.target.coarseOvf ∧ t.world.lines = s.world.lines

/-- CONFIGURE_RETAIN completes when the bus answers cleanly: the ten frames carry the mirrored values, stale or not,
START_MEAS as 0, and PARITY_EN and bits with no field as 0 too (R41 and R28, the model's reading beside R212: log entries
36 and 24); `cfg` and `cal_periods` stay; the written slots become live (R212). -/
def Obligations.ConfigureRetainReapplies : Prop :=
  ∀ (s : State) (v1 v2 v3 mh ml oh ol : Byte), s.Accessible → s.cfg ≠ none →
    s.mirror8.config1.value = some v1 → s.mirror8.config2.value = some v2 →
    s.mirror8.intMask.value = some v3 → s.mirror8.stopMaskH.value = some mh → s.mirror8.stopMaskL.value = some ml →
    s.mirror8.clockOvfH.value = some oh → s.mirror8.clockOvfL.value = some ol →
    s.CleanNext 10 →
    let L := s.params.layout
    let c1 := withoutStartMeas L v1 &&& sentBits L .config1
    let c2 := v2 &&& sentBits L .config2
    let mask := v3 &&& sentBits L .intMask
    ∃ t x, exec .configureRetain s = .next t ∧ withoutStartMeas L x = c1 ∧ startMeasBit L c1 = false ∧
      parityBit L c1 = false ∧
      t = { s with
        world := t.world
        pstate := .configured
        mirror8 := configured8 s.mirror8 c1 c2 mask (joinHalf mh ml) (joinHalf oh ol)
        mirror16 := { s.mirror16 with
          clockOvf := ⟨some (joinHalf oh ol), false⟩, stopMask := ⟨some (joinHalf mh ml), false⟩ }
        result := .nothing
        log := verified8 .config1 c1 x ++ verified8 .config2 c2 c2 ++ verified8 .intMask mask mask ++
          verified16 .stopMask (joinHalf mh ml) ++ verified16 .clockOvf (joinHalf oh ol) ++ [.power .configured] } ∧
      t.world.target.Holds L c1 c2 mask (joinHalf mh ml) (joinHalf oh ol) ∧ t.world.lines = s.world.lines

/-- HARD_RECOVER completes when the bus answers cleanly: ENABLE low, OSC_ENABLE and ENABLE high where assigned, then the
ten frames of the retained configuration and no other; the power cycle resets the target where ENABLE is assigned
(COARSE_CNTR_OVF, which no later write touches, is back at its reset value); the slots it does not write stay stale
(R257). That the mirrored bytes are sent with PARITY_EN and the bits no field has as 0 is the model's reading of R41 and
R28 beside R212 (log entries 36 and 24), and the warnings for unassigned lines are its reading of R56 (log entry 32). -/
def Obligations.HardRecoverRestoresConfiguration : Prop :=
  ∀ (s : State) (v1 v2 v3 mh ml oh ol : Byte), s.Accepting → s.pstate = .configured → s.cfg ≠ none →
    s.mirror8.config1.value = some v1 → s.mirror8.config2.value = some v2 →
    s.mirror8.intMask.value = some v3 → s.mirror8.stopMaskH.value = some mh → s.mirror8.stopMaskL.value = some ml →
    s.mirror8.clockOvfH.value = some oh → s.mirror8.clockOvfL.value = some ol →
    s.CleanNext 17 →
    let L := s.params.layout
    let c1 := withoutStartMeas L v1 &&& sentBits L .config1
    let c2 := v2 &&& sentBits L .config2
    let mask := v3 &&& sentBits L .intMask
    ∃ t x, exec .hardRecover s = .next t ∧ withoutStartMeas L x = c1 ∧ startMeasBit L c1 = false ∧
      parityBit L c1 = false ∧
      t = { s with
        world := t.world
        mirror8 := configured8 (s.mirror8.map fun x => { x with stale := true }) c1 c2 mask (joinHalf mh ml)
          (joinHalf oh ol)
        mirror24 := s.mirror24.map fun x => { x with stale := true }
        mirror16 := { coarseOvf := { s.mirror16.coarseOvf with stale := true }
                      clockOvf := ⟨some (joinHalf oh ol), false⟩
                      stopMask := ⟨some (joinHalf mh ml), false⟩ }
        result := .nothing
        log := [driveNote s.params.pins .enable false, .power .off, driveNote s.params.pins .oscEnable true,
            driveNote s.params.pins .enable true, .power .on] ++
          verified8 .config1 c1 x ++ verified8 .config2 c2 c2 ++ verified8 .intMask mask mask ++
          verified16 .stopMask (joinHalf mh ml) ++ verified16 .clockOvf (joinHalf oh ol) ++ [.power .configured] } ∧
      t.world.target.Holds L c1 c2 mask (joinHalf mh ml) (joinHalf oh ol) ∧
      t.world.lines = { s.world.lines with
        oscEnable := s.params.pins.oscEnable || s.world.lines.oscEnable
        enable := s.params.pins.enable || s.world.lines.enable } ∧
      (s.params.pins.enable = true →
        t.world.target.coarseOvf = joinHalf s.params.reset8.coarseOvfH s.params.reset8.coarseOvfL) ∧
      s.world.time + s.params.tResetMin + s.params.tSettle ≤ t.world.time

/-- With a bound on attempts no write-verify loop goes on for ever: CONFIGURE, CONFIGURE_RETAIN, HARD_RECOVER, and MEASURE
at the wrong TRIG level through it, end, Configured, or in ConfigurationWriteFailure with the target powered off (R200,
R316, R328). Without a bound the error is never raised: they end Configured, or go on in the next step, as such an
operation then does itself (R200; log entry 11). -/
def Obligations.BoundedRetryAlwaysEnds : Prop :=
  (∀ (s : State) (i : Instr), s.Accepting →
    ((∃ q, i = .configure q ∧ s.pstate ≠ .off ∧ stopMaskRefused q = false) ∨
     (i = .configureRetain ∧ s.pstate ≠ .off ∧ s.cfg ≠ none ∧ s.retained ≠ none) ∨
     (i = .hardRecover ∧ s.pstate = .configured ∧ s.cfg ≠ none ∧ s.retained ≠ none) ∨
     (∃ c c1 n, i = .measure ∧ s.MeasureReady c c1 n ∧ s.retained ≠ none ∧ ¬ s.TrigIdle c)) →
    ∃ t, exec i s = .next t ∧
      ((t.fatal = none ∧ t.pending = none ∧ t.pstate = .configured ∧
          (i = .measure → t.outcome = some .triggerPolarity)) ∨
       (s.params.retryLimit ≠ none ∧ t.fatal = some .configurationWriteFailure ∧ t.pending = none ∧
        t.pstate = .off ∧ t.mstate = .idle ∧ t.result = .failed .configurationWriteFailure ∧
        (s.params.pins.enable = true → t.world.target = Target.inReset s.params)) ∨
       (s.params.retryLimit = none ∧ t.fatal = none ∧ t.pending ≠ none))) ∧
  ∀ s : State, s.pending ≠ none → s.fatal = none → s.params.retryLimit = none →
    ∃ t, step s = .next t ∧ t.fatal = none ∧ (t.pending ≠ none ∨ t.pstate = .configured)

/-! ## Measurement -/

/-- MEASURE with TRIG idle (or not wired) always completes, with exactly one outcome, and back in Idle; it writes no
8-bit slot, `cfg`, power state or bus setting (R230, R252, R326, R330). -/
def Obligations.MeasureYieldsOneOutcome : Prop :=
  ∀ (s : State) (c : Cfg) (c1 : Byte) (n : Nat), s.MeasureReady c c1 n → s.TrigIdle c →
    ∃ t o, exec .measure s = .next t ∧ o ≠ .triggerPolarity ∧
      t = { s with
        world := t.world
        mirror24 := t.mirror24
        calCount := t.calCount
        normLsb := t.normLsb
        tof := t.tof
        delta := t.delta
        pulseCount := t.pulseCount
        delivered := t.delivered
        outcome := some o
        result := .outcome o
        log := t.log }

/-- MEASURE that sees TRIG and INT (where wired), then reads a clean block from a target that is not busy with
CALIBRATION2 ≠ CALIBRATION1, completes with the pulse count of the registers read (R230, R250). -/
def Obligations.MeasureSucceedsWithPulseCount : Prop :=
  ∀ (s : State) (c : Cfg) (c1 : Byte) (n : Nat), s.MeasureReady c c1 n → s.TrigIdle c → s.TriggerSeen c c1 →
    s.InterruptSeen c c1 →
    let d := s.completed c c1
    let x := d.around.target.r24
    d.turn.noise = .clean → d.around.target.busy = false → x.calibration2 ≠ x.calibration1 → n ≠ 1 →
    ∃ t k, exec .measure s = .next t ∧
      k = (if c.measMode = 1 then [x.time1, x.time2, x.time3, x.time4, x.time5]
        else [x.time2, x.time3, x.time4, x.time5, x.time6]).countP (fun v => v != 0#24) ∧
      t.outcome = some (.success k) ∧ t.result = .outcome (.success k) ∧ t.pulseCount = k ∧ t.mstate = .idle ∧
      t.mirror24 = x.map (fun v => ⟨some v, false⟩) ∧ t.mirror8 = s.mirror8 ∧
      t.world.lines = d.world.lines ∧ t.world.target.r24 = x ∧
      t.calCount = some ((((x.calibration2.toNat : Int) - x.calibration1.toNat : Int) : Rat) / ((n : Rat) - 1))

/-- R251: after InterruptTimeout no transfer is made, and the 24-bit slots and every result latch keep their values;
the wait took at least its deadline (R253). -/
def Obligations.InterruptTimeoutTouchesNoResult : Prop :=
  ∀ (s : State) (c : Cfg) (c1 : Byte) (n : Nat), s.MeasureReady c c1 n → s.TrigIdle c → s.TriggerSeen c c1 →
    s.params.pins.int1 = true → (s.interruptWait c c1).1 = .timeout →
    ∃ t, exec .measure s = .next t ∧
      t = { s with
        world := (s.interruptWait c c1).2.world
        outcome := some .interruptTimeout
        result := .outcome .interruptTimeout
        log := (s.interruptWait c c1).2.log ++
          [.moved .timedOut, .reported .interruptTimeout, .moved .idle] } ∧
      (s.pulsed c c1).world.time + interruptDeadline s.params c ≤ t.world.time

/-- A trigger wait that times out ends MEASURE with the error its polarity names, right after the one arming transfer;
nothing else is written (R234, R312, R313). The arming byte has PARITY_EN and the bits no field has as 0, the model's
reading of R41 and R28 beside R233's `m[0x00] | START_MEAS` (log entries 36 and 24). -/
def Obligations.TriggerTimeoutNamedByPolarity : Prop :=
  ∀ (s : State) (c : Cfg) (c1 : Byte) (n : Nat), s.MeasureReady c c1 n → s.TrigIdle c →
    s.params.pins.trig1 = true → (s.triggerWait c c1).1 = .timeout →
    let L := s.params.layout
    let o := if c.trigFalling then MeasOutcome.triggerFallTimeout else .triggerRiseTimeout
    let arm := (c1 ||| 1#8 <<< L.startMeas.val) &&& sentBits L .config1
    parityBit L arm = false ∧
    exec .measure s = .next { s with
      world := (s.triggerWait c c1).2.world
      outcome := some o
      result := .outcome o
      log := [.sent [0x40#8, arm], .moved .armedWaitingTrigger, .moved .timedOut, .reported o, .moved .idle] }

/-- A MEASURE that samples TRIG at the wrong level makes no arming write: it runs the recovery; if that completes the
outcome is TriggerPolarityError, else MEASURE ends as the recovery does, fatal, or goes on with it (R232, R311, R324). -/
def Obligations.WrongPolarityRecovers : Prop :=
  ∀ (s : State) (c : Cfg) (c1 : Byte) (n : Nat), s.MeasureReady c c1 n → s.retained ≠ none →
    s.params.pins.trig1 = true → s.sampled.world.level s.params .trig1 ≠ trigIdle c →
    match s.sampled.recover .hardRecover with
    | .going u => exec .measure s = .next { u with
        outcome := some .triggerPolarity
        mstate := .idle
        result := .outcome .triggerPolarity
        log := u.log ++ [.moved .protocolError, .reported .triggerPolarity, .moved .idle] }
    | .ended u => u.outcome = s.outcome ∧
        (u.pending = none → exec .measure s = .next u ∧ u.fatal = some .configurationWriteFailure) ∧
        ∀ q, u.pending = some q → exec .measure s = .next { u with pending := some { q with op := .measure } }
    | .refused _ => False

/-- R391, R235, R325: a wait times out exactly when every sample it took found the line inactive, and then lasted at least
its deadline and at most the deadline plus T_POLL_SLACK after its first clock reading; otherwise it sees the level at the
first sample that finds it, and ends there. That a level seen comes within the same bound is the model's (log entry 25). -/
def Obligations.WaitLineRespectsDeadline : Prop :=
  ∀ (p : Params) (role : PinRole) (level : Bool) (d : Rat) (w : World), 0 ≤ d → 0 ≤ p.tPollSlack →
    let r := w.waitLine p role level d
    let w0 := (w.nextTurn p).2
    let first := (w0.turnUnder p (some (w0.time + d + p.tPollSlack))).2
    let samples := World.samples p d w0.time (w0.script.length / 2) w0
    samples.head? = some first ∧
    (r.1 = .timeout ↔ ∀ u ∈ samples, u.level p role ≠ level) ∧
    (r.1 = .timeout → w0.time + d ≤ r.2.time ∧ r.2.time ≤ w0.time + d + p.tPollSlack ∧
      ∀ u ∈ samples, w0.time ≤ u.time ∧ u.time ≤ r.2.time) ∧
    (r.1 = .seen → samples.find? (fun u => u.level p role == level) = some r.2 ∧ r.2.level p role = level ∧
      r.2.time ≤ w0.time + d + p.tPollSlack) ∧
    (first.level p role = level → r = (.seen, first)) ∧ w.time ≤ w0.time ∧ w0.time ≤ r.2.time ∧ r.2.lines = w.lines

/-- SIM_PULSES drives at most one START pulse and `k` STOP pulses, each to the active level and back, with `k` at most
`num_stop`, never a line that is not assigned; and each `k` from 0 to `num_stop` is driven when the environment's turn
draws it (R56, R245, R246). That it warns of a line that is not assigned, which R245 does not say, is the model's reading
of R56 (log entry 32). -/
def Obligations.SimPulsesBranchOnPins : Prop :=
  ∀ (s : State) (c : Cfg),
    let shown := fun k : Nat =>
      (if s.params.pins.start then [.drive .start (startActive c), .drive .start (!startActive c)]
        else [.warned (.unassigned .start)]) ++
      (if s.params.pins.stop then
        (List.replicate k [.drive .stop (stopActive c), .drive .stop (!stopActive c)]).flatten
        else [.warned (.unassigned .stop)])
    (∃ k ≤ c.numStop, (s.simPulses c).log = s.log ++ shown k) ∧
    (∀ k ≤ c.numStop, 3 ≤ s.world.script.length → (∀ turn ∈ s.world.script.take 3, turn.pulses = k) →
      (s.simPulses c).log = s.log ++ shown k) ∧
    s.simPulses c = { s with world := (s.simPulses c).world, log := (s.simPulses c).log } ∧
    (s.params.pins.start = false → (s.simPulses c).world.lines.start = s.world.lines.start) ∧
    (s.params.pins.stop = false → (s.simPulses c).world.lines.stop = s.world.lines.stop)

/-- CLEAR_STATUS completes. Forced: one blind write of all status bits, 0x1F in the default LAYOUT. Not forced, over clean
transfers: INT_STATUS is read, as RD8 reads it, into the mirror, as R255 says where R42's list of the steps that write a
slot does not name it (log entry 42), and, unless it read 0, the bits read are written back (R255, R101). -/
def Obligations.ClearStatusBothForms : Prop :=
  allStatus defaultLayout = 0x1F#8 ∧
  ∀ s : State, s.Accessible →
    let all := allStatus s.params.layout
    (∃ b, (s.turn.noise = .clean → b = all) ∧
      exec (.clearStatus true) s = .next { s with
        world := s.stored8 .intStatus b
        result := .nothing
        log := [.sent [0x42#8, all]] }) ∧
    (∀ a : State, a = { s with world := s.around.pointerless } → s.turn.noise = .clean → a.turn.noise = .clean →
      ∃ v, s.around.target.ReadsAs s.params.layout s.turn .intStatus v ∧
      exec (.clearStatus false) s = .next { s with
        world := if v = 0x00#8 then a.world else a.stored8 .intStatus (v &&& all)
        mirror8 := { s.mirror8 with intStatus := ⟨some v, false⟩ }
        result := .nothing
        log := .frame [0x02#8, 0x00#8] [0x00#8, v] ::
          (if v = 0x00#8 then [] else [.sent [0x42#8, v &&& all]]) }) ∧
    ∃ t, exec (.clearStatus false) s = .next t

/-! ## Calibration -/

/-- COMPUTE_TOFS completes with exact values, whatever the sign of CALIBRATION2 − CALIBRATION1 (R280, R283, R285 to
R291, R293, R305), exactly where R281 and R282 admit it: `cfg` set, every slot it reads present and not stale, the
mirrored codes those of `cfg`. It touches no line and no register, and yields the pulse count. What is delivered is the
same, with the result of each operation of R280, left to right, brought into the number system of FLOAT (R304; log entry
29). -/
def Obligations.ComputeTofsIsExact : Prop :=
  ∀ (s : State) (c : Cfg) (n : Nat) (x : File24 Word24) (c1 c2 : Byte), s.Accepting → s.pstate = .configured →
    s.cfg = some c → s.calPeriods = some n → s.mirror24 = x.map (fun v => ⟨some v, false⟩) →
    s.mirror8.config1 = ⟨some c1, false⟩ → s.mirror8.config2 = ⟨some c2, false⟩ →
    measModeCode s.params.layout c1 = (if c.measMode = 1 then 0#2 else 1#2) →
    2 ^ (avgCode s.params.layout c2).toNat = c.avgCycles →
    n ≠ 1 → x.calibration2 ≠ x.calibration1 →
    let rnd := s.params.float.round
    let count := (((x.calibration2.toNat : Int) - x.calibration1.toNat : Int) : Rat) / ((n : Rat) - 1)
    let results := fun (rnd : Rat → Rat) =>
      let norm := rnd (rnd s.params.clockPeriod / rnd count)
      let slot1 := fun (v : Word24) => if v = 0#24 then none else some (rnd (norm * v.toNat))
      let slot2 := fun (v k : Word24) => if v = 0#24 then none
        else some (rnd (rnd (norm * ((x.time1.toNat : Rat) - v.toNat)) +
          rnd (rnd ((k.toNat : Rat) / c.avgCycles) * rnd s.params.clockPeriod)))
      let tof : Tofs := if c.measMode = 1
        then ⟨slot1 x.time1, slot1 x.time2, slot1 x.time3, slot1 x.time4, slot1 x.time5⟩
        else ⟨slot2 x.time2 x.clockCount1, slot2 x.time3 x.clockCount2, slot2 x.time4 x.clockCount3,
          slot2 x.time5 x.clockCount4, slot2 x.time6 x.clockCount5⟩
      let gap := fun (a b : Option Rat) => a.bind fun u => b.map fun v => rnd (v - u)
      ({ calCount := some (rnd count)
         normLsb := some norm
         tof := tof
         delta := ⟨gap tof.t1 tof.t2, gap tof.t2 tof.t3, gap tof.t3 tof.t4, gap tof.t4 tof.t5⟩ } : Delivery)
    let exact := results fun q => q
    let k := [exact.tof.t1, exact.tof.t2, exact.tof.t3, exact.tof.t4, exact.tof.t5].countP Option.isSome
    exec .computeTofs s = .next { s with
      calCount := exact.calCount
      normLsb := exact.normLsb
      tof := exact.tof
      delta := exact.delta
      pulseCount := k
      delivered := results rnd
      result := .pulses k
      log := [] }

/-- R284, R292: equal calibration registers give NoCalibrationError: no division, `cal_count` 0, `norm_lsb` unset, every
slot and delta absent, the count 0. COMPUTE_TOFS run by the host returns the error and writes no outcome, R53 before R326,
which is the model's (log entry 22). A MEASURE that sees TRIG and INT (where wired) and reads a clean block from a target
that is not busy ends in that outcome, through ProtocolError, with the block it read in the mirror (R230, R231, R250,
R315). -/
def Obligations.ZeroGuardReportsNoCalibration : Prop :=
  (∀ (s : State) (c : Cfg) (n : Nat) (x : File24 Word24) (c1 c2 : Byte), s.Accepting → s.pstate = .configured →
    s.cfg = some c → s.calPeriods = some n → s.mirror24 = x.map (fun v => ⟨some v, false⟩) →
    s.mirror8.config1 = ⟨some c1, false⟩ → s.mirror8.config2 = ⟨some c2, false⟩ →
    measModeCode s.params.layout c1 = (if c.measMode = 1 then 0#2 else 1#2) →
    2 ^ (avgCode s.params.layout c2).toNat = c.avgCycles →
    n = 1 ∨ x.calibration2 = x.calibration1 →
    exec .computeTofs s = .next { s with
      calCount := some 0
      normLsb := none
      tof := ⟨none, none, none, none, none⟩
      delta := ⟨none, none, none, none⟩
      pulseCount := 0
      delivered := ⟨some 0, none, ⟨none, none, none, none, none⟩, ⟨none, none, none, none⟩⟩
      result := .outcome .noCalibration
      log := [.reported .noCalibration] }) ∧
  ∀ (s : State) (c : Cfg) (c1 : Byte) (n : Nat), s.MeasureReady c c1 n → s.TrigIdle c → s.TriggerSeen c c1 →
    s.InterruptSeen c c1 →
    let d := s.completed c c1
    let x := d.around.target.r24
    d.turn.noise = .clean → d.around.target.busy = false → n = 1 ∨ x.calibration2 = x.calibration1 →
    ∃ w, exec .measure s = .next { s with
        world := w
        mirror24 := x.map fun v => ⟨some v, false⟩
        calCount := some 0
        normLsb := none
        tof := ⟨none, none, none, none, none⟩
        delta := ⟨none, none, none, none⟩
        pulseCount := 0
        delivered := ⟨some 0, none, ⟨none, none, none, none, none⟩, ⟨none, none, none, none⟩⟩
        outcome := some .noCalibration
        result := .outcome .noCalibration
        log := d.log ++ [.frame (0x90#8 :: zeros 39) (0x00#8 :: x.toList.flatMap bytes24), .moved .protocolError,
          .reported .noCalibration, .moved .idle] } ∧
      d.BulkReadLeaves w

/-- COMPUTE_TOFS is a function of its inputs: run twice, it gives the same state (R281). It is refused while `cfg` is
unset, a 24-bit slot, CONFIG1's or CONFIG2's is absent or stale, or the two disagree with `cfg` on mode or averaging
(R281, R282). MEASURE is refused while CONFIG1's slot is absent or stale (R43, R230, R375), CONFIGURE_RETAIN and
HARD_RECOVER while `cfg` is unset or a slot they re-apply is absent (R212, R257). -/
def Obligations.ComputeTofsNeedsLiveMirror : Prop :=
  (∀ s t : State, exec .computeTofs s = .next t → exec .computeTofs t = .next t) ∧
  (∀ s : State, s.cfg = none → ∃ r, exec .computeTofs s = .refused r) ∧
  (∀ (s : State) (c : Cfg), s.cfg = some c →
    ((∃ r, (s.mirror24.get r).value = none ∨ (s.mirror24.get r).stale = true) ∨
     (s.mirror8.config1.value = none ∨ s.mirror8.config1.stale = true) ∨
     (s.mirror8.config2.value = none ∨ s.mirror8.config2.stale = true) ∨
     (∃ c1, s.mirror8.config1.value = some c1 ∧
       (measModeCode s.params.layout c1).toNat ≠ (if c.measMode = 1 then 0 else 1)) ∨
     (∃ c2, s.mirror8.config2.value = some c2 ∧ 2 ^ (avgCode s.params.layout c2).toNat ≠ c.avgCycles)) →
    ∃ r, exec .computeTofs s = .refused r) ∧
  (∀ s : State, s.mirror8.config1.value = none ∨ s.mirror8.config1.stale = true → ∃ r, exec .measure s = .refused r) ∧
  ∀ s : State, (s.cfg = none ∨ ∃ x ∈ [Reg8.config1, .config2, .intMask, .clockOvfH, .clockOvfL, .stopMaskH, .stopMaskL],
      (s.mirror8.get x).value = none) →
    (∃ r, exec .configureRetain s = .refused r) ∧ ∃ r, exec .hardRecover s = .refused r

/-- What the host and its collaborator receive. R318, R329: outcome codes are 0 to 10 and tell legal outcomes apart, so the
eleven counters of a batch of N sum to N. R294: the decay interval is the difference of the first two slots, given exactly
when the outcome is a count of 2 or more and both are present. R51, R290: an absent slot is delivered as 0. R304: an exact
number is delivered as it is; under binary64 each operation gives a significand of at most 53 bits times a power of two,
within one unit of its last place, 0 for 0 (log entry 29). -/
def Obligations.HistogramSumsToBatch : Prop :=
  (∀ a b : MeasOutcome, (∀ n, a = .success n → n ≤ 5) → (∀ n, b = .success n → n ≤ 5) → a.code = b.code → a = b) ∧
  (∀ os : List MeasOutcome, (∀ o ∈ os, ∀ n, o = .success n → n ≤ 5) →
    (histogram os).length = 11 ∧ (histogram os).sum = os.length) ∧
  (∀ (s : State) (v : Rat), s.deliverySound = true →
    (s.decayInterval = some v ↔ ∃ n a b, s.outcome = some (.success n) ∧ 2 ≤ n ∧
      s.delivered.tof.t1 = some a ∧ s.delivered.tof.t2 = some b ∧ v = s.params.float.round (b - a)) ∧
    (s.params.float = .exact → (s.decayInterval = some v ↔
      ∃ n, s.outcome = some (.success n) ∧ 2 ≤ n ∧ s.delta.d1 = some v))) ∧
  (∀ (t : Tofs) (k : Nat) (x : Option Rat), t.toList[k]? = some x → t.numbers[k]? = some (x.elim 0 id)) ∧
  (∀ q, NumberSystem.exact.round q = q) ∧
  ∀ (r : Rounding) (q : Rat), ∃ m e : Int, (NumberSystem.binary64 r).round q = m * (2 : Rat) ^ e ∧ m.natAbs ≤ 2 ^ 53 ∧
    |(NumberSystem.binary64 r).round q - q| * 2 ^ 52 ≤ |q|

/-! ## The target and the lines -/

/-- R320: unless the target is wedged or INT is silent, INT is at INT_ACTIVE exactly while a status bit is set whose
like-named mask bit is 1; in the default LAYOUT the mask is INT_MASK's bits 2:0. That INT is silent from a target reset to
the next arming (R361), and from a lost interrupt until then (R265), is the model's reading (log entry 21). -/
def Obligations.InterruptLevelFollowsStatus : Prop :=
  ∀ (p : Params) (w : World),
    let x := w.target.r8.intStatus
    let m := w.target.r8.intMask
    let L := p.layout
    (w.target.wedged = false → w.target.intSilent = false →
      (w.level p .int1 = p.intActive ↔
        (x.getLsbD L.newMeas.val = true ∧ m.getLsbD L.newMeasMask.val = true) ∨
        (x.getLsbD L.coarseOvf.val = true ∧ m.getLsbD L.coarseOvfMask.val = true) ∨
        (x.getLsbD L.clockOvf.val = true ∧ m.getLsbD L.clockOvfMask.val = true))) ∧
    (w.target.wedged = false → w.target.intSilent = true → w.level p .int1 = !p.intActive) ∧
    (w.target.wedged = true → w.level p .int1 = w.target.stuckInt) ∧
    enabledSources defaultLayout m = m &&& 0x07#8 ∧ defaultParams.intActive = false

/-- The environment's turns move no line, keep every 8-bit register but INT_STATUS and START_MEAS, and do not run the
clock back (R22, R56, R101, R335). -/
def Obligations.EnvironmentTurnOnlyDrifts : Prop :=
  ∀ (p : Params) (ceil : Option Rat) (turn : Turn) (w : World),
    (w.play p ceil turn).lines = w.lines ∧ w.time ≤ (w.play p ceil turn).time ∧
    (∀ r, r ≠ .config1 → r ≠ .intStatus → (w.play p ceil turn).target.r8.get r = w.target.r8.get r) ∧
    withoutStartMeas p.layout (w.play p ceil turn).target.r8.config1 =
      withoutStartMeas p.layout w.target.r8.config1

/-- R260 to R264, R267: TRIG is active exactly while the target is ready, stuck while it is wedged; the active START edge
starts an armed target and sets MEAS_STARTED_FLAG. The last stop of a one-cycle measurement and a counter's overflow begin
its end: INT does not move yet, and nothing counts on. When the end is done, the status bits raised are set, START_MEAS is
cleared, `busy` is false, and the registers of the stops that were captured are filled, mode by mode; without FORCE_CAL an
overflow leaves the calibration registers alone. That the end takes any time before INT is driven is R101's order read
into R263 and R264 (log entry 33). The coarse counter's overflow ends a measurement of mode 1; in another mode the
measurement goes on, INT unmoved: the bit is set at once where it moves no INT, as where INT_MASK does not enable it (R34),
else when the measurement ends (log entry 18, as is a limit of 0). -/
def Obligations.TargetMeasurementCycle : Prop :=
  ∀ (p : Params) (turn : Turn) (now : Rat) (t : Target),
    let L := p.layout
    let x := t.new24
    let y := t.r24
    let n := t.stopsSeen L
    let slot := fun (k : Nat) (new old : Word24) => if k ≤ n then new else old
    let cal := fun (new old : Word24) => if forceCalBit L t.r8.config1 then new else old
    let mode1 := t.disturbed = false ∧ measModeCode L t.r8.config1 = 0#2
    let mode2 := t.disturbed = false ∧ measModeCode L t.r8.config1 = 1#2
    (t.wedged = false → (t.trigLevel L = !trigEdgeBit L t.r8.config1 ↔ t.phase = .ready)) ∧
    (t.wedged = true → t.trigLevel L = t.stuckTrig) ∧
    (t.phase = .armed ∨ t.phase = .ready →
      let u := t.startEdge L now (!startEdgeBit L t.r8.config1)
      u.phase = .started ∧ u.startTime = now ∧ u.r8.intStatus = t.r8.intStatus ||| bitMask L.started ∧
      (t.wedged = false → u.trigLevel L = trigEdgeBit L t.r8.config1) ∧
      t.startEdge L now (startEdgeBit L t.r8.config1) = t) ∧
    (t.phase = .started → t.stopMask.toNat < t.clockCount p now →
      let u := t.stopEdge p now (!stopEdgeBit L t.r8.config1) turn.atMask
      (t.captured + 1 < t.numStop L → u.phase = .started ∧ u.captured = t.captured + 1) ∧
      (t.numStop L ≤ t.captured + 1 → t.avgCycles L = 1 → u.intLevel p = t.intLevel p ∧
        u = { t with
          captured := t.captured + 1
          phase := .ending
          owed := t.owed ||| (bitMask L.newMeas ||| bitMask L.complete)
          overrun := false })) ∧
    (t.phase = .started → t.clockCount p now < t.stopMask.toNat →
      t.stopEdge p now (!stopEdgeBit L t.r8.config1) turn.atMask = t) ∧
    (t.phase = .started → t.clockOvf.toNat ≤ t.clockCount p now →
      let u := t.checkClock p now
      u.intLevel p = t.intLevel p ∧
      u = { t with phase := .ending, owed := t.owed ||| bitMask L.clockOvf, overrun := true }) ∧
    (t.phase = .started → t.clockCount p now < t.clockOvf.toNat → t.checkClock p now = t) ∧
    (t.phase = .ending → t.busy = true ∧ t.checkClock p now = t ∧ (∀ ticks, t.advanceCoarse p ticks = t) ∧
      ∀ rising, t.startEdge L now rising = t ∧ t.stopEdge p now rising turn.atMask = t) ∧
    (t.phase = .ending →
      let u := t.complete L turn
      u.busy = false ∧ u.r8.intStatus = t.r8.intStatus ||| t.owed ∧ startMeasBit L u.r8.config1 = false ∧
      u.intSilent = turn.intLost ∧
      (t.overrun = false → mode1 → u.r24 = ⟨slot 1 x.time1 y.time1, x.clockCount1, slot 2 x.time2 y.time2,
        x.clockCount2, slot 3 x.time3 y.time3, x.clockCount3, slot 4 x.time4 y.time4, x.clockCount4,
        slot 5 x.time5 y.time5, x.clockCount5, x.time6, x.calibration1, x.calibration2⟩) ∧
      (t.overrun = false → mode2 → u.r24 = ⟨x.time1, slot 1 x.clockCount1 y.clockCount1, slot 1 x.time2 y.time2,
        slot 2 x.clockCount2 y.clockCount2, slot 2 x.time3 y.time3, slot 3 x.clockCount3 y.clockCount3,
        slot 3 x.time4 y.time4, slot 4 x.clockCount4 y.clockCount4, slot 4 x.time5 y.time5,
        slot 5 x.clockCount5 y.clockCount5, slot 5 x.time6 y.time6, x.calibration1, x.calibration2⟩) ∧
      (t.overrun = true → mode1 → u.r24 = ⟨slot 1 x.time1 y.time1, y.clockCount1, slot 2 x.time2 y.time2,
        y.clockCount2, slot 3 x.time3 y.time3, y.clockCount3, slot 4 x.time4 y.time4, y.clockCount4,
        slot 5 x.time5 y.time5, y.clockCount5, y.time6, cal x.calibration1 y.calibration1,
        cal x.calibration2 y.calibration2⟩) ∧
      (t.overrun = true → mode2 → u.r24 = ⟨x.time1, slot 1 x.clockCount1 y.clockCount1, slot 1 x.time2 y.time2,
        slot 2 x.clockCount2 y.clockCount2, slot 2 x.time3 y.time3, slot 3 x.clockCount3 y.clockCount3,
        slot 3 x.time4 y.time4, slot 4 x.clockCount4 y.clockCount4, slot 4 x.time5 y.time5,
        slot 5 x.clockCount5 y.clockCount5, slot 5 x.time6 y.time6, cal x.calibration1 y.calibration1,
        cal x.calibration2 y.calibration2⟩)) ∧
    ∀ ticks, t.phase = .started →
      let u := t.advanceCoarse p ticks
      let limit := max 1 t.coarseOvf.toNat
      let counted := { t with coarse := t.coarse + ticks }
      let raised := { counted with r8 := { t.r8 with intStatus := t.r8.intStatus ||| bitMask L.coarseOvf } }
      u.intLevel p = t.intLevel p ∧
      (t.coarse + ticks < limit → u = counted) ∧
      (limit ≤ t.coarse + ticks →
        (measModeCode L t.r8.config1 = 0#2 →
          u = { counted with phase := .ending, owed := t.owed ||| bitMask L.coarseOvf, overrun := true }) ∧
        (measModeCode L t.r8.config1 ≠ 0#2 →
          (limit ≤ t.coarse → u = counted) ∧
          (t.coarse < limit →
            (raised.intLevel p = t.intLevel p → u = raised) ∧
            (raised.intLevel p ≠ t.intLevel p → u = { counted with owed := t.owed ||| bitMask L.coarseOvf }) ∧
            (L.wf = true → t.r8.intMask.getLsbD L.coarseOvfMask.val = false → u = raised))))
end

