-- ==== Sys2Proof/Laws/World.lean ====
section
/-! SUPPORT. What the environment's turns, the waits and the line writes can do to the world: said once per
operation, for later proofs to cite. -/

namespace Sys2Proof.Machine

theorem le_add_nonnegative (now dt : Rat) : now ≤ now + nonnegative dt := by
  unfold nonnegative
  split <;> linarith

theorem clockAfter_le (ceil : Option Rat) (dt now : Rat) : now ≤ clockAfter ceil dt now := by
  have h := le_add_nonnegative now dt
  unfold clockAfter
  split
  · exact h
  · split
    · exact h
    · split <;> linarith

/-- Without a ceiling the whole wait passes. -/
theorem add_le_clockAfter (dt now : Rat) : now + dt ≤ clockAfter none dt now := by
  simp only [clockAfter, nonnegative]
  split <;> linarith

/-- With a ceiling not yet passed the clock stays at or below it. -/
theorem clockAfter_le_ceil {c now : Rat} (dt : Rat) (h : now ≤ c) : clockAfter (some c) dt now ≤ c := by
  simp only [clockAfter]
  split
  · assumption
  · exact le_refl c

/-- What the environment may do to a target it does not hold in reset: registers the controller alone writes keep
their values, CONFIG1 up to START_MEAS, and no auto-increment pointer appears. -/
structure Target.Drifts (L : Layout) (t t' : Target) : Prop where
  keeps   : ∀ r, r ≠ .config1 → r ≠ .intStatus → t'.r8.get r = t.r8.get r
  config1 : withoutStartMeas L t'.r8.config1 = withoutStartMeas L t.r8.config1
  pointer : t'.ap = t.ap

theorem Target.Drifts.refl (L : Layout) (t : Target) : t.Drifts L t := ⟨fun _ _ _ => rfl, rfl, rfl⟩

theorem Target.Drifts.trans {L : Layout} {a b c : Target} (h : a.Drifts L b) (k : b.Drifts L c) : a.Drifts L c :=
  ⟨fun r h1 h2 => (k.keeps r h1 h2).trans (h.keeps r h1 h2), k.config1.trans h.config1, k.pointer.trans h.pointer⟩

/-- A change that is none to the 8-bit registers and the pointer is a drift. -/
theorem Target.Drifts.of_eq {L : Layout} {t t' : Target} (h : t'.r8 = t.r8) (k : t'.ap = t.ap) : t.Drifts L t' :=
  ⟨fun _ _ _ => by rw [h], by rw [h], k⟩

theorem withoutStartMeas_idem (L : Layout) (v : Byte) :
    withoutStartMeas L (withoutStartMeas L v) = withoutStartMeas L v := by
  simp [withoutStartMeas, BitVec.and_assoc]

/-- A status bit set is a drift. -/
theorem Target.Drifts.of_status {L : Layout} {t t' : Target} (b : Byte)
    (h : t'.r8 = { t.r8 with intStatus := t.r8.intStatus ||| b }) (k : t'.ap = t.ap) : t.Drifts L t' := by
  refine ⟨fun r h1 h2 => ?_, by rw [h], k⟩
  rw [h]
  cases r <;> simp_all [File8.get]

theorem Target.beginEnd_drifts (L : Layout) (bits : Byte) (overrun : Bool) (t : Target) :
    t.Drifts L (t.beginEnd bits overrun) := .of_eq rfl rfl

theorem Target.endMeasurement_drifts (L : Layout) (turn : Turn) (t : Target) : t.Drifts L (t.endMeasurement L turn) := by
  refine ⟨fun r h1 h2 => ?_, withoutStartMeas_idem _ _, rfl⟩
  cases r <;> simp_all [Target.endMeasurement, File8.get]

theorem Target.checkClock_drifts (p : Params) (now : Rat) (t : Target) : t.Drifts p.layout (t.checkClock p now) := by
  unfold Target.checkClock
  split
  · exact t.beginEnd_drifts ..
  · exact .refl _ t

theorem Target.startEdge_drifts (L : Layout) (now : Rat) (rising : Bool) (t : Target) :
    t.Drifts L (t.startEdge L now rising) := by
  unfold Target.startEdge
  split
  · exact .of_status _ rfl rfl
  · exact .refl _ t

theorem Target.capture_drifts (L : Layout) (t : Target) : t.Drifts L (t.capture L) := by
  unfold Target.capture
  split
  · exact .of_eq rfl rfl
  · split <;> exact .of_eq rfl rfl

theorem Target.stopEdge_drifts (p : Params) (now : Rat) (rising atMask : Bool) (t : Target) :
    t.Drifts p.layout (t.stopEdge p now rising atMask) := by
  unfold Target.stopEdge
  split
  · exact t.capture_drifts _
  · exact .refl _ t

theorem Target.raiseCoarse_drifts (p : Params) (t : Target) : t.Drifts p.layout (t.raiseCoarse p) := by
  unfold Target.raiseCoarse
  dsimp only
  split
  · exact .of_status _ rfl rfl
  · exact .of_eq rfl rfl

theorem Target.advanceCoarse_drifts (p : Params) (ticks : Nat) (t : Target) :
    t.Drifts p.layout (t.advanceCoarse p ticks) := by
  have u : t.Drifts p.layout { t with coarse := t.coarse + ticks } := .of_eq rfl rfl
  unfold Target.advanceCoarse
  dsimp only
  split
  · split
    · exact u
    · split
      · exact u.trans (Target.beginEnd_drifts ..)
      · split
        · exact u.trans (Target.raiseCoarse_drifts ..)
        · exact u
  · exact .refl _ t

/-- Raising the coarse overflow of a measurement that goes on never moves INT (R101). -/
theorem Target.raiseCoarse_intLevel (p : Params) (t : Target) : (t.raiseCoarse p).intLevel p = t.intLevel p := by
  unfold Target.raiseCoarse
  dsimp only
  split
  · assumption
  · rfl

/-- A measurement that begins to end does not move INT yet (R101). -/
theorem Target.beginEnd_intLevel (p : Params) (bits : Byte) (overrun : Bool) (t : Target) :
    (t.beginEnd bits overrun).intLevel p = t.intLevel p := rfl

theorem Target.complete_drifts (L : Layout) (turn : Turn) (t : Target) : t.Drifts L (t.complete L turn) := by
  unfold Target.complete
  split
  · exact t.endMeasurement_drifts ..
  · split
    · exact t.beginEnd_drifts ..
    · exact .refl _ t

theorem Target.wedge_drifts (L : Layout) (trig int : Bool) (t : Target) : t.Drifts L (t.wedge trig int) := by
  unfold Target.wedge
  split <;> exact .of_eq rfl rfl

theorem Target.event_drifts (p : Params) (turn : Turn) (now : Rat) (e : Event) (t : Target) :
    t.Drifts p.layout (t.event p turn now e) := by
  cases e with
  | trigReady =>
    simp only [Target.event]
    split <;> exact .of_eq rfl rfl
  | startEdge rising => exact t.startEdge_drifts _ now rising
  | stopEdge rising => exact t.stopEdge_drifts p now rising turn.atMask
  | coarse ticks => exact t.advanceCoarse_drifts p ticks
  | finish => exact t.complete_drifts _ turn
  | wedge trig int => exact t.wedge_drifts _ trig int

/-- A target that is not busy has no measurement that a passing clock could end. -/
theorem Target.checkClock_idle (p : Params) (now : Rat) {t : Target} (h : t.busy = false) :
    t.checkClock p now = t := by
  have i : t.phase = .idle := by simpa [Target.busy] using h
  simp [Target.checkClock, i]

/-- What time and events do to a target with no measurement in flight: at most they wedge it. -/
structure Target.Rests (t t' : Target) : Prop where
  busy : t'.busy = false
  r8   : t'.r8 = t.r8
  r24  : t'.r24 = t.r24

theorem Target.event_rests (p : Params) (turn : Turn) (now : Rat) (e : Event) {t : Target} (h : t.busy = false) :
    t.Rests (t.event p turn now e) := by
  have i : t.phase = .idle := by simpa [Target.busy] using h
  cases e <;> simp [Target.event, i, Target.startEdge, Target.stopEdge, Target.advanceCoarse, Target.complete,
    Target.wedge]
  case wedge => split <;> exact ⟨by simp [Target.busy, i], rfl, rfl⟩
  all_goals exact ⟨h, rfl, rfl⟩

/-- What the environment can do to the world: no line it does not drive moves, what is kept of ENABLE's fall stays, the
clock does not run back, a target held in reset stays as it is, one at rest keeps its registers, and a running one only
drifts. -/
structure World.Follows (p : Params) (w w' : World) : Prop where
  lines  : w'.lines = w.lines
  low    : w'.lowSince = w.lowSince
  shadow : w'.shadow = w.shadow
  time   : w.time ≤ w'.time
  held   : w.held p = true → w.target.busy = false → w'.target = w.target
  rests  : w.target.busy = false → w.target.Rests w'.target
  target : w.target.Drifts p.layout w'.target

/-- A script or a turn counter is not part of what follows. -/
theorem World.follows_script (p : Params) (w : World) (script : List Turn) (draws : Nat) :
    w.Follows p { w with script := script, draws := draws } :=
  ⟨rfl, rfl, rfl, le_refl _, fun _ _ => rfl, fun h => ⟨h, rfl, rfl⟩, .refl _ _⟩

/-- A target in reset stays there while ENABLE is low (R361). -/
theorem World.Follows.inReset {p : Params} {w w' : World} (f : w.Follows p w') (h : w.held p = true)
    (k : w.target = Target.inReset p) : w'.target = Target.inReset p :=
  (f.held h (by rw [k]; rfl)).trans k

theorem World.Follows.refl (p : Params) (w : World) : w.Follows p w := w.follows_script p w.script w.draws

theorem World.held_congr {p : Params} {w w' : World} (h : w'.lines = w.lines) : w'.held p = w.held p := by
  simp [World.held, h]

theorem World.Follows.trans {p : Params} {a b c : World} (h : a.Follows p b) (k : b.Follows p c) : a.Follows p c :=
  ⟨k.lines.trans h.lines, k.low.trans h.low, k.shadow.trans h.shadow, h.time.trans k.time,
   fun hh hb => (k.held ((World.held_congr h.lines).trans hh) (h.rests hb).busy).trans (h.held hh hb),
   fun hb => ⟨(k.rests (h.rests hb).busy).busy, (k.rests (h.rests hb).busy).r8.trans (h.rests hb).r8,
     (k.rests (h.rests hb).busy).r24.trans (h.rests hb).r24⟩, h.target.trans k.target⟩

theorem World.elapse_follows (p : Params) (ceil : Option Rat) (dt : Rat) (w : World) :
    w.Follows p (w.elapse p ceil dt) := by
  refine ⟨rfl, rfl, rfl, clockAfter_le .., fun _ h => ?_, fun h => ?_, Target.checkClock_drifts ..⟩
  · simp only [World.elapse, Target.checkClock_idle _ _ h]
  · simp only [World.elapse, Target.checkClock_idle _ _ h]
    exact ⟨h, rfl, rfl⟩

theorem World.happen_follows (p : Params) (turn : Turn) (e : Event) (w : World) :
    w.Follows p (w.happen p turn e) := by
  unfold World.happen
  split
  · exact .refl p w
  · rename_i h
    refine ⟨rfl, rfl, rfl, le_refl _, fun hh => ?_, fun hb => Target.event_rests _ _ _ _ hb, Target.event_drifts ..⟩
    simp [hh] at h

theorem World.happenAll_follows (p : Params) (ceil : Option Rat) (turn : Turn) (es : List (Rat × Event)) (w : World) :
    w.Follows p (w.happenAll p ceil turn es) := by
  induction es generalizing w with
  | nil => exact .refl p w
  | cons x rest ih =>
    obtain ⟨dt, e⟩ := x
    exact ((w.elapse_follows p ceil dt).trans (World.happen_follows ..)).trans (ih _)

theorem World.play_follows (p : Params) (ceil : Option Rat) (turn : Turn) (w : World) :
    w.Follows p (w.play p ceil turn) :=
  (World.happenAll_follows ..).trans (World.elapse_follows ..)

theorem World.takeTurn_follows (p : Params) (w : World) : w.Follows p w.takeTurn.2 := by
  unfold World.takeTurn
  split <;> exact World.follows_script ..

theorem World.turnUnder_follows (p : Params) (ceil : Option Rat) (w : World) : w.Follows p (w.turnUnder p ceil).2 :=
  (w.takeTurn_follows p).trans (World.play_follows ..)

theorem World.nextTurn_follows (p : Params) (w : World) : w.Follows p (w.nextTurn p).2 := w.turnUnder_follows p none

theorem World.delay_follows (p : Params) (t : Rat) (w : World) : w.Follows p (w.delay p t) :=
  (w.nextTurn_follows p).trans ((World.nextTurn_follows ..).trans (World.elapse_follows ..))

/-- A delay takes at least its time (R10). -/
theorem World.delay_time (p : Params) (t : Rat) (w : World) : w.time + t ≤ (w.delay p t).time := by
  have f := (w.nextTurn_follows p).time
  have h := add_le_clockAfter ((w.nextTurn p).2.time + t - (((w.nextTurn p).2).nextTurn p).2.time)
    (((w.nextTurn p).2).nextTurn p).2.time
  have e : (w.delay p t).time =
      clockAfter none ((w.nextTurn p).2.time + t - (((w.nextTurn p).2).nextTurn p).2.time)
        (((w.nextTurn p).2).nextTurn p).2.time := rfl
  rw [e]
  linarith

/-- In the rounds of a wait the controller only watches. -/
theorem World.poll_follows (p : Params) (role : PinRole) (level : Bool) (d t0 : Rat) (rounds : Nat) (w : World) :
    w.Follows p (World.poll p role level d t0 rounds w).2 := by
  induction rounds generalizing w with
  | zero =>
    simp only [World.poll]
    have h := w.turnUnder_follows p (some (t0 + d + p.tPollSlack))
    split
    · exact h
    · exact h.trans ((World.turnUnder_follows ..).trans (World.elapse_follows ..))
  | succ n ih =>
    simp only [World.poll]
    have h := w.turnUnder_follows p (some (t0 + d + p.tPollSlack))
    split
    · exact h
    · split
      · exact h.trans (World.turnUnder_follows ..)
      · exact h.trans ((World.turnUnder_follows ..).trans (ih _))

theorem World.waitLine_follows (p : Params) (role : PinRole) (level : Bool) (d : Rat) (w : World) :
    w.Follows p (w.waitLine p role level d).2 :=
  (w.nextTurn_follows p).trans (World.poll_follows ..)

/-- A poll times out exactly when every sample it takes finds the line inactive; otherwise it ends at the first sample
that finds it active (R235). -/
theorem World.poll_samples (p : Params) (role : PinRole) (level : Bool) (d t0 : Rat) (rounds : Nat) (w : World) :
    ((World.poll p role level d t0 rounds w).1 = .timeout ↔
      ∀ u ∈ World.samples p d t0 rounds w, u.level p role ≠ level) ∧
    ((World.poll p role level d t0 rounds w).1 = .seen →
      (World.samples p d t0 rounds w).find? (fun u => u.level p role == level) =
        some (World.poll p role level d t0 rounds w).2) := by
  induction rounds generalizing w with
  | zero =>
    simp only [World.poll, World.samples]
    split
    · rename_i h; simp [h]
    · rename_i h; simp [h]
  | succ n ih =>
    simp only [World.poll, World.samples]
    split
    · rename_i h
      split <;> simp [h]
    · rename_i h
      split
      · simp [h]
      · have i := ih (World.turnUnder p (some (t0 + d + p.tPollSlack)) (World.turnUnder p (some (t0 + d + p.tPollSlack)) w).2).2
        refine ⟨by simp [h, i.1], fun k => ?_⟩
        rw [List.find?_cons_of_neg (by simp [h])]
        exact i.2 k

/-! ## The script -/

theorem World.elapse_script (p : Params) (c : Option Rat) (dt : Rat) (w : World) :
    (w.elapse p c dt).script = w.script := rfl

theorem World.happen_script (p : Params) (turn : Turn) (e : Event) (w : World) : (w.happen p turn e).script =
    w.script := by
  unfold World.happen; split <;> rfl

/-- The environment's turns leave the script alone. -/
theorem World.happenAll_script (p : Params) (c : Option Rat) (turn : Turn) (es) (w : World) :
    (w.happenAll p c turn es).script = w.script := by
  induction es generalizing w with
  | nil => rfl
  | cons x rest ih => obtain ⟨dt, e⟩ := x; simp only [World.happenAll, ih, World.happen_script, World.elapse_script]

theorem World.play_script (p : Params) (c : Option Rat) (turn : Turn) (w : World) : (w.play p c turn).script =
    w.script := by
  simp only [World.play, World.elapse_script, World.happenAll_script]

/-- A turn takes one turn of the script. -/
theorem World.turnUnder_script (p : Params) (c : Option Rat) (w : World) :
    (w.turnUnder p c).2.script = w.script.drop 1 := by
  unfold World.turnUnder World.takeTurn
  cases w.script <;> simp [World.play_script]

theorem World.nextTurn_script (p : Params) (w : World) : (w.nextTurn p).2.script = w.script.drop 1 :=
  World.turnUnder_script ..

/-- A delay takes two turns of the script. -/
theorem World.delay_script (p : Params) (t : Rat) (w : World) : (w.delay p t).script = w.script.drop 2 := by
  simp only [World.delay, World.elapse_script, World.nextTurn_script, List.drop_drop]

/-! ## Lines -/

/-- An assigned ENABLE driven low puts the target in reset (R361). -/
theorem World.enableLow_held (p : Params) (w : World) (h : p.pins.enable = true) :
    (w.enableLow p).held p = true ∧ (w.enableLow p).target = Target.inReset p := by
  simp [World.held, h, World.enableLow]

/-- ENABLE has been low since no later than now. -/
theorem World.enableLow_since (p : Params) (w : World) : (w.enableLow p).lowSince ≤ w.time := by
  simp only [World.enableLow]
  split
  · exact le_refl _
  · rename_i h
    simp only [Bool.or_eq_true, decide_eq_true_eq, not_or, not_lt] at h
    exact h.2

/-- What driving a line does: no other line moves and the clock stands. -/
theorem World.drive_frame (p : Params) (turn : Turn) (role : PinRole) (level : Bool) (w : World) :
    (w.drive p turn role level).time = w.time ∧ (w.drive p turn role level).script = w.script ∧
    (w.drive p turn role level).lines = w.lines.driven role level := by
  cases role <;> cases level <;> exact ⟨rfl, rfl, rfl⟩

/-- Driving a line other than ENABLE lets the target drift at most, and not at all while it is held in reset. -/
theorem World.drive_target (p : Params) (turn : Turn) (role : PinRole) (level : Bool) (w : World) (h : role ≠ .enable) :
    w.target.Drifts p.layout (w.drive p turn role level).target ∧
    (w.held p = true → (w.drive p turn role level).target = w.target) := by
  cases role
  case enable => exact absurd rfl h
  case start =>
    simp only [World.drive, World.driveStart]
    split
    · exact ⟨.refl _ _, fun _ => rfl⟩
    · rename_i k
      exact ⟨Target.startEdge_drifts .., fun hh => by simp [hh] at k⟩
  case stop =>
    simp only [World.drive, World.driveStop]
    split
    · exact ⟨.refl _ _, fun _ => rfl⟩
    · rename_i k
      exact ⟨Target.stopEdge_drifts .., fun hh => by simp [hh] at k⟩
  all_goals exact ⟨.refl _ _, fun _ => rfl⟩

/-- Driving a line leaves no pointer behind. -/
theorem World.drive_pointer (p : Params) (turn : Turn) (role : PinRole) (level : Bool) (w : World)
    (h : w.target.ap = none) : (w.drive p turn role level).target.ap = none := by
  by_cases e : role = .enable
  · subst e
    cases level
    · rfl
    · simp only [World.drive, World.enableHigh, if_true]
      split
      · rfl
      · exact h
  · exact (World.drive_target p turn role level w e).1.pointer.trans h

end Sys2Proof.Machine
end

