-- ==== Sys2Proof/Laws/Bus.lean ====
section
/-! SUPPORT. What one bus transfer does, shape by shape: the bytes a read answers, the registers a write stores, and
that neither moves a line or the clock beyond the environment's turn. -/

namespace Sys2Proof.Machine

@[simp] theorem commandWrite_commandByte (auto write : Bool) (a : Addr) :
    commandWrite (commandByte auto write a) = write := by
  cases auto <;> cases write <;> revert a <;> decide

@[simp] theorem commandAuto_commandByte (auto write : Bool) (a : Addr) :
    commandAuto (commandByte auto write a) = auto := by
  cases auto <;> cases write <;> revert a <;> decide

@[simp] theorem commandAddr_commandByte (auto write : Bool) (a : Addr) :
    commandAddr (commandByte auto write a) = a := by
  cases auto <;> cases write <;> revert a <;> decide

@[simp] theorem hiByte_joinHalf (h l : Byte) : hiByte (joinHalf h l) = h := by
  ext i hi
  simp [hiByte, joinHalf, hi, show 8 + i < 16 by omega]

@[simp] theorem loByte_joinHalf (h l : Byte) : loByte (joinHalf h l) = l := by
  ext i hi
  simp [loByte, joinHalf, hi, show i < 16 by omega]

@[simp] theorem joinHalf_bytes (v : Half) : joinHalf (hiByte v) (loByte v) = v := by
  ext i hi
  simp [hiByte, loByte, joinHalf]
  grind

@[simp] theorem join24_bytes (v : Word24) :
    join24 (v.extractLsb' 16 8) (v.extractLsb' 8 8) (v.extractLsb' 0 8) = v := by
  ext i hi
  simp [join24]
  grind

@[simp] theorem regOf8_regAddr8 (r : Reg8) : regOf8 (regAddr8 r) = some r := by cases r <;> rfl

@[simp] theorem regOf24_regAddr24 (r : Reg24) : regOf24 (regAddr24 r) = some r := by cases r <;> rfl

@[simp] theorem regOf8_regAddr24 (r : Reg24) : regOf8 (regAddr24 r) = none := by cases r <;> rfl

@[simp] theorem regOf24_regAddr8 (r : Reg8) : regOf24 (regAddr8 r) = none := by cases r <;> rfl

@[simp] theorem regOfPair_regAddrPair (p : Pair) : regOfPair (regAddrPair p) = some p := by cases p <;> rfl

@[simp] theorem regOf8_regAddrPair (p : Pair) : regOf8 (regAddrPair p) = some (pairHi p) := by cases p <;> rfl

@[simp] theorem regOf8_regAddrPair_succ (p : Pair) : regOf8 (regAddrPair p + 1#6) = some (pairLo p) := by
  cases p <;> rfl

@[simp] theorem File8.get_set_same {α : Type} (f : File8 α) (r : Reg8) (v : α) : (f.set r v).get r = v := by
  cases r <;> rfl

theorem File8.get_set_ne {α : Type} (f : File8 α) {r r' : Reg8} (v : α) (h : r' ≠ r) :
    (f.set r v).get r' = f.get r' := by
  cases r <;> cases r' <;> first | rfl | exact absurd rfl h

@[simp] theorem File24.get_set_same {α : Type} (f : File24 α) (r : Reg24) (v : α) : (f.set r v).get r = v := by
  cases r <;> rfl

theorem File24.get_set_ne {α : Type} (f : File24 α) {r r' : Reg24} (v : α) (h : r' ≠ r) :
    (f.set r v).get r' = f.get r' := by
  cases r <;> cases r' <;> first | rfl | exact absurd rfl h

@[simp] theorem FilePair.get_set_same {α : Type} (f : FilePair α) (r : Pair) (v : α) : (f.set r v).get r = v := by
  cases r <;> rfl

theorem FilePair.get_set_ne {α : Type} (f : FilePair α) {r r' : Pair} (v : α) (h : r' ≠ r) :
    (f.set r v).get r' = f.get r' := by
  cases r <;> cases r' <;> first | rfl | exact absurd rfl h

@[simp] theorem File8.get_map {α β : Type} (g : α → β) (f : File8 α) (r : Reg8) : (f.map g).get r = g (f.get r) := by
  cases r <;> rfl

@[simp] theorem File24.get_map {α β : Type} (g : α → β) (f : File24 α) (r : Reg24) :
    (f.map g).get r = g (f.get r) := by
  cases r <;> rfl

@[simp] theorem FilePair.get_map {α β : Type} (g : α → β) (f : FilePair α) (r : Pair) :
    (f.map g).get r = g (f.get r) := by
  cases r <;> rfl

/-- Two 8-bit containers with the same entries are the same. -/
theorem File8.ext_get {α : Type} {f g : File8 α} (h : ∀ r, f.get r = g.get r) : f = g := by
  cases f
  cases g
  simpa [File8.get, and_assoc] using
    And.intro (h .config1) (And.intro (h .config2) (And.intro (h .intStatus) (And.intro (h .intMask)
      (And.intro (h .coarseOvfH) (And.intro (h .coarseOvfL) (And.intro (h .clockOvfH) (And.intro (h .clockOvfL)
        (And.intro (h .stopMaskH) (h .stopMaskL)))))))))

/-- What a read of an 8-bit register sees (R101). -/
theorem Target.readout8_reads (L : Layout) (turn : Turn) (t : Target) (r : Reg8) :
    t.ReadsAs L turn r (t.readout8 L turn r) := by
  have i (h : t.busy = false) : (t.phase == .ending) = false := by
    have : t.phase = .idle := by simpa [Target.busy] using h
    simp [this]
  refine ⟨fun h => by simp [Target.readout8, h, i h], fun h1 h2 => ?_, fun h1 h2 => ?_, fun h1 h2 => ?_⟩
  · cases r <;> simp_all [Target.readout8]
  · subst h2; simp [Target.readout8, h1]
  · subst h2; simp [Target.readout8, File8.get]

/-- A read of CONFIG1 gives its value up to START_MEAS (R30). -/
theorem Target.ReadsAs.config1 {L : Layout} {turn : Turn} {t : Target} {v : Byte} (h : t.ReadsAs L turn .config1 v) :
    withoutStartMeas L v = withoutStartMeas L t.r8.config1 := by
  cases b : t.busy with
  | false => rw [h.settled b]; rfl
  | true => rw [h.start b rfl]; split <;> simp [withoutStartMeas_idem]

/-- A clean one-register read of an 8-bit register answers what a read of it sees (R160). -/
theorem World.answer_rd8 {p : Params} {turn : Turn} (h : turn.noise = .clean) (w : World) (r : Reg8) :
    w.answer p turn false (regAddr8 r) 1 = ([0x00#8, w.target.readout8 p.layout turn r], w.pointerless) := by
  have e : ({ w.target with ap := some (regAddr8 r) } : Target).readout8 p.layout turn r =
      w.target.readout8 p.layout turn r := rfl
  simp [World.answer, h, World.memRead, Target.bytesAtPointer, Target.movePointer, World.happenAll, World.pointerless, e]

/-- Neither byte of a pair is a register the target writes. -/
theorem Target.readout8_pair (L : Layout) (turn : Turn) (t : Target) (q : Pair) :
    t.readout8 L turn (pairHi q) = t.r8.get (pairHi q) ∧ t.readout8 L turn (pairLo q) = t.r8.get (pairLo q) := by
  constructor <;> apply (t.readout8_reads L turn _).other <;> cases q <;> simp [pairHi, pairLo]

/-- A clean read of a pair answers the `_H` byte, then the `_L` byte (R162). -/
theorem World.answer_rd16 {p : Params} {turn : Turn} (h : turn.noise = .clean) (w : World) (q : Pair) :
    w.answer p turn true (regAddrPair q) 2 =
      ([0x00#8, w.target.r8.get (pairHi q), w.target.r8.get (pairLo q)], w.pointerless) := by
  have e (t : Target) := t.readout8_pair p.layout turn q
  simp [(e _).1, (e _).2, World.answer, h, World.memRead, Target.bytesAtPointer, Target.movePointer, World.happenAll, World.pointerless]

/-- A clean read of a 24-bit register answers its three bytes, as a read sees them (R164, U9). -/
theorem World.answer_rd24 {p : Params} {turn : Turn} (h : turn.noise = .clean) (w : World) (r : Reg24) :
    w.answer p turn false (regAddr24 r) 3 =
      (0x00#8 :: bytes24 (w.target.readout p.layout turn r), w.pointerless) := by
  have e : ({ w.target with ap := some (regAddr24 r) } : Target).readout p.layout turn r =
      w.target.readout p.layout turn r := rfl
  simp [World.answer, h, World.memRead, Target.bytesAtPointer, Target.movePointer, World.happenAll, World.pointerless,
    bytes24, e]

/-- Where a bulk read's world may be when the pointer stands at `a`: it follows the world the read began in, and is that
world if nothing happened in between. -/
structure World.Reading (p : Params) (turn : Turn) (w0 : World) (a : Addr) (w : World) : Prop where
  pointer : w.target.ap = some a
  follows : w0.pointerless.Follows p w.pointerless
  quiet   : turn.gaps = [] → w.pointerless = w0.pointerless

theorem Target.Drifts.pointerless {L : Layout} {t t' : Target} (h : t.Drifts L t') :
    ({ t with ap := none } : Target).Drifts L { t' with ap := none } := ⟨h.keeps, h.config1, rfl⟩

/-- The world as a read finds it, the pointer set. -/
theorem World.Reading.start (p : Params) (turn : Turn) (w0 : World) (a : Addr) :
    World.Reading p turn w0 a { w0 with target := { w0.target with ap := some a } } :=
  ⟨rfl, .refl p w0.pointerless, fun _ => rfl⟩

/-- The environment acting between two registers of a bulk read. -/
theorem World.Reading.next {p : Params} {turn : Turn} {w0 w : World} {a : Addr} (h : World.Reading p turn w0 a w)
    (es : List (Rat × Event)) (he : turn.gaps = [] → es = []) :
    World.Reading p turn w0 (a + 1)
      (World.happenAll p none turn es { w with target := w.target.movePointer true }) := by
  obtain ⟨ha, hf, hq⟩ := h
  have f := World.happenAll_follows p none turn es { w with target := w.target.movePointer true }
  refine ⟨by rw [f.target.pointer]; simp [Target.movePointer, ha], ?_, fun k => ?_⟩
  · exact hf.trans ⟨f.lines, f.low, f.shadow, f.time,
      fun hh hb => congrArg (fun t : Target => { t with ap := none }) (f.held hh hb),
      fun hb => ⟨(f.rests hb).busy, (f.rests hb).r8, (f.rests hb).r24⟩, f.target.pointerless⟩
  · rw [he k, ← hq k]
    rfl

/-- One 8-bit register of a bulk read. -/
theorem World.memRead_reg8 {p : Params} {turn : Turn} {gaps : List (List (Rat × Event))} {w0 w : World} {a : Addr}
    (h : World.Reading p turn w0 a w) (hg : turn.gaps = [] → gaps = []) (r : Reg8) (hr : regOf8 a = some r) :
    ∃ w', World.Reading p turn w0 (a + 1) w' ∧ (turn.gaps = [] → gaps.tail = []) ∧
      ∀ (n fuel : Nat) (out : List Byte), out.length < n → World.memRead p turn true n gaps (fuel + 1) out w =
        World.memRead p turn true n gaps.tail fuel (out ++ [w.target.readout8 p.layout turn r]) w' := by
  refine ⟨_, h.next (gaps.headD []) (fun k => by simp [hg k]), fun k => by simp [hg k], fun n fuel out hn => ?_⟩
  simp only [World.memRead]
  rw [if_neg (by omega), show w.target.bytesAtPointer p.layout turn = [w.target.readout8 p.layout turn r] by
    simp [Target.bytesAtPointer, h.pointer, hr]]

/-- One result register of a bulk read. -/
theorem World.memRead_reg24 {p : Params} {turn : Turn} {gaps : List (List (Rat × Event))} {w0 w : World} {a : Addr}
    (h : World.Reading p turn w0 a w) (hg : turn.gaps = [] → gaps = []) (r : Reg24)
    (hr : regOf8 a = none ∧ regOf24 a = some r) :
    ∃ w', World.Reading p turn w0 (a + 1) w' ∧ (turn.gaps = [] → gaps.tail = []) ∧
      ∀ (n fuel : Nat) (out : List Byte), out.length < n → World.memRead p turn true n gaps (fuel + 1) out w =
        World.memRead p turn true n gaps.tail fuel (out ++ bytes24 (w.target.readout p.layout turn r)) w' := by
  refine ⟨_, h.next (gaps.headD []) (fun k => by simp [hg k]), fun k => by simp [hg k], fun n fuel out hn => ?_⟩
  simp only [World.memRead]
  rw [if_neg (by omega), show w.target.bytesAtPointer p.layout turn = bytes24 (w.target.readout p.layout turn r) by
    simp [Target.bytesAtPointer, h.pointer, hr.1, hr.2]]

/-- With all bytes read the loop ends. -/
theorem World.memRead_done {p : Params} {turn : Turn} {auto : Bool} {n : Nat} {gaps : List (List (Rat × Event))}
    {fuel : Nat} {out : List Byte} {w : World} (h : n ≤ out.length) :
    World.memRead p turn auto n gaps fuel out w = (out, w) := by
  cases fuel <;> simp [World.memRead, h]

/-- What a bulk read leaves of the world: the environment may have acted in it. -/
structure World.BulkRead (p : Params) (turn : Turn) (w0 w : World) : Prop where
  follows : w0.pointerless.Follows p w
  pointer : w.target.ap = none
  quiet   : turn.gaps = [] ∨ turn.noise = .corrupt → w = w0.pointerless

theorem World.Reading.done {p : Params} {turn : Turn} {w0 w : World} {a : Addr} (h : World.Reading p turn w0 a w)
    (hn : turn.noise = .clean) : World.BulkRead p turn w0 w.pointerless :=
  ⟨h.follows, rfl, fun k => h.quiet (k.resolve_right (by simp [hn]))⟩

/-- What an 8-bit register may read as in a bulk read: its value, but for the two registers the target itself writes
while it is busy (R88, R101). -/
def Target.Shows8 (L : Layout) (t : Target) (r : Reg8) (v : Byte) : Prop :=
  (t.busy = false → v = t.r8.get r) ∧
  (r = .config1 → withoutStartMeas L v = withoutStartMeas L (t.r8.get r)) ∧
  (r ≠ .config1 → r ≠ .intStatus → v = t.r8.get r)

theorem World.Reading.shows8 {p : Params} {turn : Turn} {w0 w : World} {a : Addr} (h : World.Reading p turn w0 a w)
    (r : Reg8) : w0.target.Shows8 p.layout r (w.target.readout8 p.layout turn r) := by
  have k := w.target.readout8_reads p.layout turn r
  refine ⟨fun hb => ?_, fun hr => ?_, fun h1 h2 => (k.other h2 h1).trans (h.follows.target.keeps r h1 h2)⟩
  · have f := h.follows.rests hb
    exact (k.settled f.busy).trans (congrArg (fun x => File8.get x r) f.r8)
  · subst hr; exact k.config1.trans h.follows.target.config1

theorem World.Reading.readout {p : Params} {turn : Turn} {w0 w : World} {a : Addr} (h : World.Reading p turn w0 a w)
    (r : Reg24) (hb : w0.target.busy = false) : w.target.readout p.layout turn r = w0.target.r24.get r := by
  have k := h.follows.rests hb
  have kb : w.target.busy = false := k.busy
  simp only [Target.readout, kb]
  exact congrArg (fun f => File24.get f r) k.r24

@[simp] theorem file8OfBytes_toList (f : File8 Byte) : file8OfBytes f.toList = f := rfl

@[simp] theorem file24OfBytes_flatMap (f : File24 Word24) : file24OfBytes (f.toList.flatMap bytes24) = f := by
  cases f
  simp [file24OfBytes, File24.toList, bytes24, byteAt]

@[simp] theorem takeBytes_length (n : Nat) (l : List Byte) : (takeBytes n l).length = n := by
  induction n generalizing l with
  | zero => rfl
  | succ n ih => simp [takeBytes, ih]

/-- A bulk read of the 8-bit block: eleven bytes; on a clean transfer 0x00 and the ten registers in address order, each
as it stands when its turn comes (R88, R165). -/
theorem World.answer_rdall8 (p : Params) (turn : Turn) (w0 : World) :
    ∃ (rx : List Byte) (w : World), w0.answer p turn true 0x00#6 10 = (rx, w) ∧ rx.length = 11 ∧
      World.BulkRead p turn w0 w ∧
      (turn.noise = .clean → rx.headD 0 = 0x00#8 ∧
        ∀ r, w0.target.Shows8 p.layout r ((file8OfBytes rx.tail).get r)) := by
  cases hn : turn.noise with
  | corrupt => exact ⟨takeBytes 11 turn.data, w0.pointerless, by simp [World.answer, hn], by simp,
      ⟨.refl p _, rfl, fun _ => rfl⟩, nofun⟩
  | clean =>
    have h0 := World.Reading.start p turn w0 0x00#6
    obtain ⟨w1, h1, g1, e1⟩ := World.memRead_reg8 h0 id .config1 rfl
    obtain ⟨w2, h2, g2, e2⟩ := World.memRead_reg8 h1 g1 .config2 rfl
    obtain ⟨w3, h3, g3, e3⟩ := World.memRead_reg8 h2 g2 .intStatus rfl
    obtain ⟨w4, h4, g4, e4⟩ := World.memRead_reg8 h3 g3 .intMask rfl
    obtain ⟨w5, h5, g5, e5⟩ := World.memRead_reg8 h4 g4 .coarseOvfH rfl
    obtain ⟨w6, h6, g6, e6⟩ := World.memRead_reg8 h5 g5 .coarseOvfL rfl
    obtain ⟨w7, h7, g7, e7⟩ := World.memRead_reg8 h6 g6 .clockOvfH rfl
    obtain ⟨w8, h8, g8, e8⟩ := World.memRead_reg8 h7 g7 .clockOvfL rfl
    obtain ⟨w9, h9, g9, e9⟩ := World.memRead_reg8 h8 g8 .stopMaskH rfl
    obtain ⟨w10, h10, g10, e10⟩ := World.memRead_reg8 h9 g9 .stopMaskL rfl
    let shown := fun (w : World) (r : Reg8) => w.target.readout8 p.layout turn r
    refine ⟨[0x00#8, shown { w0 with target := { w0.target with ap := some 0x00#6 } } .config1, shown w1 .config2, shown w2
      .intStatus, shown w3 .intMask, shown w4 .coarseOvfH, shown w5 .coarseOvfL, shown w6 .clockOvfH, shown w7 .clockOvfL,
      shown w8 .stopMaskH, shown w9 .stopMaskL],
      w10.pointerless, ?_, rfl, h10.done hn, fun _ => ⟨rfl, fun r => ?_⟩⟩
    · simp only [World.answer, hn]
      simp only [Bool.true_and, show decide (3 ≤ 10) = true from rfl, if_true]
      rw [e1, e2, e3, e4, e5, e6, e7, e8, e9, e10, World.memRead_done]
      · rfl
      all_goals simp
    · cases r
      · exact h0.shows8 .config1
      · exact h1.shows8 .config2
      · exact h2.shows8 .intStatus
      · exact h3.shows8 .intMask
      · exact h4.shows8 .coarseOvfH
      · exact h5.shows8 .coarseOvfL
      · exact h6.shows8 .clockOvfH
      · exact h7.shows8 .clockOvfL
      · exact h8.shows8 .stopMaskH
      · exact h9.shows8 .stopMaskL

/-- A bulk read of the 24-bit block: forty bytes; on a clean transfer 0x00 and the thirteen registers in address order,
those of a target that is not busy at their values (R88, R166). -/
theorem World.answer_rdall24 (p : Params) (turn : Turn) (w0 : World) :
    ∃ (rx : List Byte) (w : World), w0.answer p turn true 0x10#6 39 = (rx, w) ∧ rx.length = 40 ∧
      World.BulkRead p turn w0 w ∧
      (turn.noise = .clean → rx.headD 0 = 0x00#8 ∧
        (w0.target.busy = false → rx = 0x00#8 :: w0.target.r24.toList.flatMap bytes24)) := by
  cases hn : turn.noise with
  | corrupt => exact ⟨takeBytes 40 turn.data, w0.pointerless, by simp [World.answer, hn], by simp,
      ⟨.refl p _, rfl, fun _ => rfl⟩, nofun⟩
  | clean =>
    have h0 := World.Reading.start p turn w0 0x10#6
    obtain ⟨w1, h1, g1, e1⟩ := World.memRead_reg24 h0 id .time1 ⟨rfl, rfl⟩
    obtain ⟨w2, h2, g2, e2⟩ := World.memRead_reg24 h1 g1 .clockCount1 ⟨rfl, rfl⟩
    obtain ⟨w3, h3, g3, e3⟩ := World.memRead_reg24 h2 g2 .time2 ⟨rfl, rfl⟩
    obtain ⟨w4, h4, g4, e4⟩ := World.memRead_reg24 h3 g3 .clockCount2 ⟨rfl, rfl⟩
    obtain ⟨w5, h5, g5, e5⟩ := World.memRead_reg24 h4 g4 .time3 ⟨rfl, rfl⟩
    obtain ⟨w6, h6, g6, e6⟩ := World.memRead_reg24 h5 g5 .clockCount3 ⟨rfl, rfl⟩
    obtain ⟨w7, h7, g7, e7⟩ := World.memRead_reg24 h6 g6 .time4 ⟨rfl, rfl⟩
    obtain ⟨w8, h8, g8, e8⟩ := World.memRead_reg24 h7 g7 .clockCount4 ⟨rfl, rfl⟩
    obtain ⟨w9, h9, g9, e9⟩ := World.memRead_reg24 h8 g8 .time5 ⟨rfl, rfl⟩
    obtain ⟨w10, h10, g10, e10⟩ := World.memRead_reg24 h9 g9 .clockCount5 ⟨rfl, rfl⟩
    obtain ⟨w11, h11, g11, e11⟩ := World.memRead_reg24 h10 g10 .time6 ⟨rfl, rfl⟩
    obtain ⟨w12, h12, g12, e12⟩ := World.memRead_reg24 h11 g11 .calibration1 ⟨rfl, rfl⟩
    obtain ⟨w13, h13, g13, e13⟩ := World.memRead_reg24 h12 g12 .calibration2 ⟨rfl, rfl⟩
    refine ⟨0x00#8 :: (bytes24 (({ w0.target with ap := some 0x10#6 } : Target).readout p.layout turn .time1) ++ bytes24
      (w1.target.readout p.layout turn .clockCount1) ++ bytes24 (w2.target.readout p.layout turn .time2) ++ bytes24
      (w3.target.readout p.layout turn .clockCount2) ++ bytes24 (w4.target.readout p.layout turn .time3) ++ bytes24
      (w5.target.readout p.layout turn .clockCount3) ++ bytes24 (w6.target.readout p.layout turn .time4) ++ bytes24
      (w7.target.readout p.layout turn .clockCount4) ++ bytes24 (w8.target.readout p.layout turn .time5) ++ bytes24
      (w9.target.readout p.layout turn .clockCount5) ++ bytes24 (w10.target.readout p.layout turn .time6) ++ bytes24
      (w11.target.readout p.layout turn .calibration1) ++ bytes24 (w12.target.readout p.layout turn .calibration2)),
      w13.pointerless, ?_, rfl, h13.done hn, fun _ => ⟨rfl, fun hb => ?_⟩⟩
    · simp only [World.answer, hn]
      simp only [Bool.true_and, show decide (3 ≤ 39) = true from rfl, if_true]
      rw [e1, e2, e3, e4, e5, e6, e7, e8, e9, e10, e11, e12, e13, World.memRead_done]
      · rfl
      all_goals simp [bytes24]
    · rw [h0.readout .time1 hb, h1.readout .clockCount1 hb, h2.readout .time2 hb, h3.readout .clockCount2 hb,
        h4.readout .time3 hb, h5.readout .clockCount3 hb, h6.readout .time4 hb, h7.readout .clockCount4 hb,
        h8.readout .time5 hb,
        h9.readout .clockCount5 hb, h10.readout .time6 hb, h11.readout .calibration1 hb, h12.readout .calibration2 hb]
      rfl

/-- A store leaves the pointer where it is. -/
theorem Target.store_pointer (L : Layout) (turn : Turn) (r : Reg8) (b : Byte) (t : Target) (a : Option Addr) :
    { t with ap := a }.store L turn r b = { t.store L turn r b with ap := a } := by
  unfold Target.store Target.arm Target.freshArm Target.wedge Target.busy
  cases r <;> (simp; repeat' split) <;> simp_all

/-- A clean write of one 8-bit register stores the byte sent (R96, R161). -/
theorem Target.accept_wr8 {L : Layout} {turn : Turn} (h : turn.noise = .clean) (t : Target) (r : Reg8) (v : Byte) :
    t.accept L turn false (regAddr8 r) [v] = { t.store L turn r v with ap := none } := by
  simp [Target.accept, h, Target.memWrite, Target.storeAtPointer, Target.movePointer, Target.store_pointer]

/-- A clean write of a pair stores the high byte, then the low byte (R96, R163). -/
theorem Target.accept_wr16 {L : Layout} {turn : Turn} (h : turn.noise = .clean) (t : Target) (p : Pair) (v : Half) :
    t.accept L turn true (regAddrPair p) [hiByte v, loByte v] =
      { (t.store L turn (pairHi p) (hiByte v)).store L turn (pairLo p) (loByte v) with ap := none } := by
  simp [Target.accept, h, Target.memWrite, Target.storeAtPointer, Target.movePointer, Target.store_pointer]

end Sys2Proof.Machine
end

