-- ==== Sys2Proof/Laws/Layout.lean ====
section
/-! SUPPORT. LAYOUT bit by bit: which bits a field has, when two fields share none, and the bits of the two CONFIG bytes
(spec/10_state.md R28; spec/30_encoding.md R131, R132). -/

namespace Sys2Proof.Machine

theorem bitMask_bit : ∀ k i : Fin 8, (bitMask k).getLsbD i.val = decide (i.val = k.val) := by decide

theorem bits2_bit : ∀ k i : Fin 8,
    (bits2 k).getLsbD i.val = (decide (k.val ≤ i.val) && decide (i.val ≤ k.val + 1)) := by decide

theorem bits3_bit : ∀ k i : Fin 8,
    (bits3 k).getLsbD i.val = (decide (k.val ≤ i.val) && decide (i.val ≤ k.val + 2)) := by decide

/-- Two fields of one bit share none. -/
theorem disjoint11 : ∀ a b : Fin 8, (bitMask a &&& bitMask b == 0#8) = decide (a.val ≠ b.val) := by decide

theorem disjoint12 : ∀ a b : Fin 8,
    (bitMask a &&& bits2 b == 0#8) = decide (a.val ≠ b.val ∧ a.val ≠ b.val + 1) := by decide

theorem disjoint21 : ∀ a b : Fin 8,
    (bits2 a &&& bitMask b == 0#8) = decide (b.val ≠ a.val ∧ b.val ≠ a.val + 1) := by decide

theorem disjoint23 : ∀ a b : Fin 8,
    (bits2 a &&& bits3 b == 0#8) = decide (a.val + 1 < b.val ∨ b.val + 2 < a.val) := by decide

theorem disjoint33 : ∀ a b : Fin 8,
    (bits3 a &&& bits3 b == 0#8) = decide (a.val + 2 < b.val ∨ b.val + 2 < a.val) := by decide

/-- What a layout that can be says of the places of its fields (R28). -/
structure Layout.Apart (L : Layout) : Prop where
  inside  : L.measMode.val ≤ 6 ∧ L.tier.val ≤ 6 ∧ L.avg.val ≤ 5 ∧ L.numStop.val ≤ 5
  config1 : [L.forceCal.val, L.parityEn.val, L.trigEdge.val, L.stopEdge.val, L.startEdge.val, L.measMode.val,
    L.measMode.val + 1, L.startMeas.val].Nodup
  config2 : (L.tier.val + 1 < L.avg.val ∨ L.avg.val + 2 < L.tier.val) ∧
    (L.tier.val + 1 < L.numStop.val ∨ L.numStop.val + 2 < L.tier.val) ∧
    (L.avg.val + 2 < L.numStop.val ∨ L.numStop.val + 2 < L.avg.val)
  status  : [L.newMeas.val, L.coarseOvf.val, L.clockOvf.val, L.started.val, L.complete.val].Nodup
  mask    : [L.newMeasMask.val, L.coarseOvfMask.val, L.clockOvfMask.val].Nodup

theorem Layout.apart {L : Layout} (h : L.wf = true) : L.Apart := by
  simp only [Layout.wf, Bool.and_eq_true, decide_eq_true_eq] at h
  obtain ⟨⟨⟨⟨⟨⟨⟨m, t⟩, a⟩, n⟩, c1⟩, c2⟩, st⟩, mk⟩ := h
  simp only [Layout.config1Fields, Layout.config2Fields, Layout.statusFields, Layout.maskFields, fieldsDisjoint,
    List.all_cons, List.all_nil, Bool.and_true, disjoint11, disjoint12, disjoint21, disjoint23, disjoint33,
    Bool.and_eq_true, decide_eq_true_eq] at c1 c2 st mk
  refine ⟨⟨m, t, a, n⟩, ?_, ⟨c2.1.1, c2.1.2, c2.2⟩, ?_, ?_⟩ <;>
    simp only [List.nodup_cons, List.mem_cons, List.not_mem_nil, or_false, not_or, List.nodup_nil, not_false_eq_true,
      and_true] <;> grind

theorem bitAt_bit (k i : Fin 8) (b : Bool) : (bitAt k b).getLsbD i.val = (b && decide (i.val = k.val)) := by
  cases b
  · simp [bitAt]
  · exact bitMask_bit k i

/-- A field of `w` bits shifted up to `p` has no bit outside its own places. -/
theorem shifted_outside {w : Nat} (v : BitVec w) (p k : Nat) (h : k < p ∨ p + w ≤ k) :
    (decide (p ≤ k) && v.getLsbD (k - p)) = false := by
  by_cases q : p ≤ k
  · rw [BitVec.getLsbD_of_ge _ _ (by omega)]; simp
  · simp [q]

/-- The bits of CONFIGURE's CONFIG1 value (R131). -/
theorem config1Of_bit (L : Layout) (c : Cfg) (i : Fin 8) : (config1Of L c).getLsbD i.val =
    (c.forceCal && decide (i.val = L.forceCal.val) || c.trigFalling && decide (i.val = L.trigEdge.val) ||
      c.stopFalling && decide (i.val = L.stopEdge.val) || c.startFalling && decide (i.val = L.startEdge.val) ||
      decide (L.measMode.val ≤ i.val) && (measModeOf c.measMode).getLsbD (i.val - L.measMode.val)) := by
  have hi := i.isLt
  simp only [config1Of, BitVec.getLsbD_or, bitAt_bit, BitVec.getLsbD_shiftLeft, BitVec.getLsbD_setWidth]
  grind

/-- The bits of CONFIGURE's CONFIG2 value (R132). -/
theorem config2Of_bit (L : Layout) (c : Cfg) (i : Fin 8) : (config2Of L c).getLsbD i.val =
    (decide (L.tier.val ≤ i.val) && (tierOf c.calPeriods).getLsbD (i.val - L.tier.val) ||
      decide (L.avg.val ≤ i.val) && (logAvg c.avgCycles).getLsbD (i.val - L.avg.val) ||
      decide (L.numStop.val ≤ i.val) && (BitVec.ofNat 3 (c.numStop - 1)).getLsbD (i.val - L.numStop.val)) := by
  have hi := i.isLt
  simp only [config2Of, BitVec.getLsbD_or, BitVec.getLsbD_shiftLeft, BitVec.getLsbD_setWidth]
  grind

/-- CONFIGURE's CONFIG1 value has START_MEAS 0 (R131, R198). -/
theorem withoutStartMeas_config1Of {L : Layout} (h : L.wf = true) (c : Cfg) :
    withoutStartMeas L (config1Of L c) = config1Of L c := by
  have a := Layout.apart h
  have d := a.config1
  simp only [List.nodup_cons, List.mem_cons, List.not_mem_nil, or_false, not_or, List.nodup_nil] at d
  ext i hi
  have e := config1Of_bit L c ⟨i, hi⟩
  have m := bitMask_bit L.startMeas ⟨i, hi⟩
  simp only at e m
  rw [← BitVec.getLsbD_eq_getElem, ← BitVec.getLsbD_eq_getElem, withoutStartMeas, BitVec.getLsbD_and,
    BitVec.getLsbD_not, m, e]
  have z : ∀ j, 2 ≤ j → (measModeOf c.measMode).getLsbD j = false := fun j hj => BitVec.getLsbD_of_ge _ _ hj
  by_cases k : i = L.startMeas.val
  · have := z (i - L.measMode.val)
    have w := a.inside
    simp [hi]
    grind
  · simp [hi, k]

/-- The controller sends CONFIG1 with PARITY_EN 0, whatever the value, and every other bit that has a field as given
(R41, R144). -/
theorem sentByte_config1_bit (L : Layout) (v : Byte) (i : Fin 8) : (sentByte L .config1 v).getLsbD i.val =
    (v.getLsbD i.val && (unionOf L.config1Fields).getLsbD i.val && decide (i ≠ L.parityEn)) := by
  simp only [sentByte, sentBits, BitVec.getLsbD_and, BitVec.getLsbD_not, bitMask_bit, Fin.ext_iff, ne_eq, i.isLt]
  simp [Bool.and_assoc]

@[simp] theorem parityBit_sentByte (L : Layout) (v : Byte) : parityBit L (sentByte L .config1 v) = false := by
  rw [parityBit, sentByte_config1_bit]; simp

@[simp] theorem parityBit_armByte (L : Layout) (v : Byte) : parityBit L (armByte L v) = false := parityBit_sentByte _ _

end Sys2Proof.Machine
end

