-- ==== Sys2Proof/Laws/State.lean ====
section
/-! SUPPORT. One lemma per field for every update of State, so that no later proof unfolds a record update. -/

namespace Sys2Proof.Machine

/-! The operation starts. -/

@[simp] theorem State.begin_mirror8 (s : State) : s.begin.mirror8 = s.mirror8 := rfl
@[simp] theorem State.begin_mirror24 (s : State) : s.begin.mirror24 = s.mirror24 := rfl
@[simp] theorem State.begin_mirror16 (s : State) : s.begin.mirror16 = s.mirror16 := rfl
@[simp] theorem State.begin_cfg (s : State) : s.begin.cfg = s.cfg := rfl
@[simp] theorem State.begin_pstate (s : State) : s.begin.pstate = s.pstate := rfl
@[simp] theorem State.begin_mstate (s : State) : s.begin.mstate = s.mstate := rfl
@[simp] theorem State.begin_calPeriods (s : State) : s.begin.calPeriods = s.calPeriods := rfl
@[simp] theorem State.begin_calCount (s : State) : s.begin.calCount = s.calCount := rfl
@[simp] theorem State.begin_normLsb (s : State) : s.begin.normLsb = s.normLsb := rfl
@[simp] theorem State.begin_tof (s : State) : s.begin.tof = s.tof := rfl
@[simp] theorem State.begin_delta (s : State) : s.begin.delta = s.delta := rfl
@[simp] theorem State.begin_pulseCount (s : State) : s.begin.pulseCount = s.pulseCount := rfl
@[simp] theorem State.begin_delivered (s : State) : s.begin.delivered = s.delivered := rfl
@[simp] theorem State.begin_outcome (s : State) : s.begin.outcome = s.outcome := rfl
@[simp] theorem State.begin_fatal (s : State) : s.begin.fatal = s.fatal := rfl
@[simp] theorem State.begin_busOpen (s : State) : s.begin.busOpen = s.busOpen := rfl
@[simp] theorem State.begin_busSpeed (s : State) : s.begin.busSpeed = s.busSpeed := rfl
@[simp] theorem State.begin_pending (s : State) : s.begin.pending = s.pending := rfl
@[simp] theorem State.begin_world (s : State) : s.begin.world = s.world := rfl
@[simp] theorem State.begin_params (s : State) : s.begin.params = s.params := rfl
@[simp] theorem State.begin_requests (s : State) : s.begin.requests = s.requests := rfl
@[simp] theorem State.begin_result (s : State) : s.begin.result = .nothing := rfl
@[simp] theorem State.begin_log (s : State) : s.begin.log = [] := rfl

/-! One more log line. -/

@[simp] theorem State.note_mirror8 (s : State) (o : Observation) : (s.note o).mirror8 = s.mirror8 := rfl
@[simp] theorem State.note_mirror24 (s : State) (o : Observation) : (s.note o).mirror24 = s.mirror24 := rfl
@[simp] theorem State.note_mirror16 (s : State) (o : Observation) : (s.note o).mirror16 = s.mirror16 := rfl
@[simp] theorem State.note_cfg (s : State) (o : Observation) : (s.note o).cfg = s.cfg := rfl
@[simp] theorem State.note_pstate (s : State) (o : Observation) : (s.note o).pstate = s.pstate := rfl
@[simp] theorem State.note_mstate (s : State) (o : Observation) : (s.note o).mstate = s.mstate := rfl
@[simp] theorem State.note_calPeriods (s : State) (o : Observation) : (s.note o).calPeriods = s.calPeriods := rfl
@[simp] theorem State.note_calCount (s : State) (o : Observation) : (s.note o).calCount = s.calCount := rfl
@[simp] theorem State.note_normLsb (s : State) (o : Observation) : (s.note o).normLsb = s.normLsb := rfl
@[simp] theorem State.note_tof (s : State) (o : Observation) : (s.note o).tof = s.tof := rfl
@[simp] theorem State.note_delta (s : State) (o : Observation) : (s.note o).delta = s.delta := rfl
@[simp] theorem State.note_pulseCount (s : State) (o : Observation) : (s.note o).pulseCount = s.pulseCount := rfl
@[simp] theorem State.note_delivered (s : State) (o : Observation) : (s.note o).delivered = s.delivered := rfl
@[simp] theorem State.note_outcome (s : State) (o : Observation) : (s.note o).outcome = s.outcome := rfl
@[simp] theorem State.note_fatal (s : State) (o : Observation) : (s.note o).fatal = s.fatal := rfl
@[simp] theorem State.note_busOpen (s : State) (o : Observation) : (s.note o).busOpen = s.busOpen := rfl
@[simp] theorem State.note_busSpeed (s : State) (o : Observation) : (s.note o).busSpeed = s.busSpeed := rfl
@[simp] theorem State.note_pending (s : State) (o : Observation) : (s.note o).pending = s.pending := rfl
@[simp] theorem State.note_world (s : State) (o : Observation) : (s.note o).world = s.world := rfl
@[simp] theorem State.note_params (s : State) (o : Observation) : (s.note o).params = s.params := rfl
@[simp] theorem State.note_requests (s : State) (o : Observation) : (s.note o).requests = s.requests := rfl
@[simp] theorem State.note_result (s : State) (o : Observation) : (s.note o).result = s.result := rfl
@[simp] theorem State.note_log (s : State) (o : Observation) : (s.note o).log = s.log ++ [o] := rfl

/-! Warnings. -/

@[simp] theorem State.warnAll_mirror8 (s : State) (ws : List Warning) : (s.warnAll ws).mirror8 = s.mirror8 := rfl
@[simp] theorem State.warnAll_mirror24 (s : State) (ws : List Warning) : (s.warnAll ws).mirror24 = s.mirror24 := rfl
@[simp] theorem State.warnAll_mirror16 (s : State) (ws : List Warning) : (s.warnAll ws).mirror16 = s.mirror16 := rfl
@[simp] theorem State.warnAll_cfg (s : State) (ws : List Warning) : (s.warnAll ws).cfg = s.cfg := rfl
@[simp] theorem State.warnAll_pstate (s : State) (ws : List Warning) : (s.warnAll ws).pstate = s.pstate := rfl
@[simp] theorem State.warnAll_mstate (s : State) (ws : List Warning) : (s.warnAll ws).mstate = s.mstate := rfl
@[simp] theorem State.warnAll_calPeriods (s : State) (ws : List Warning) :
    (s.warnAll ws).calPeriods = s.calPeriods := rfl
@[simp] theorem State.warnAll_calCount (s : State) (ws : List Warning) : (s.warnAll ws).calCount = s.calCount := rfl
@[simp] theorem State.warnAll_normLsb (s : State) (ws : List Warning) : (s.warnAll ws).normLsb = s.normLsb := rfl
@[simp] theorem State.warnAll_tof (s : State) (ws : List Warning) : (s.warnAll ws).tof = s.tof := rfl
@[simp] theorem State.warnAll_delta (s : State) (ws : List Warning) : (s.warnAll ws).delta = s.delta := rfl
@[simp] theorem State.warnAll_pulseCount (s : State) (ws : List Warning) :
    (s.warnAll ws).pulseCount = s.pulseCount := rfl
@[simp] theorem State.warnAll_delivered (s : State) (ws : List Warning) :
    (s.warnAll ws).delivered = s.delivered := rfl
@[simp] theorem State.warnAll_outcome (s : State) (ws : List Warning) : (s.warnAll ws).outcome = s.outcome := rfl
@[simp] theorem State.warnAll_fatal (s : State) (ws : List Warning) : (s.warnAll ws).fatal = s.fatal := rfl
@[simp] theorem State.warnAll_busOpen (s : State) (ws : List Warning) : (s.warnAll ws).busOpen = s.busOpen := rfl
@[simp] theorem State.warnAll_busSpeed (s : State) (ws : List Warning) : (s.warnAll ws).busSpeed = s.busSpeed := rfl
@[simp] theorem State.warnAll_pending (s : State) (ws : List Warning) : (s.warnAll ws).pending = s.pending := rfl
@[simp] theorem State.warnAll_world (s : State) (ws : List Warning) : (s.warnAll ws).world = s.world := rfl
@[simp] theorem State.warnAll_params (s : State) (ws : List Warning) : (s.warnAll ws).params = s.params := rfl
@[simp] theorem State.warnAll_requests (s : State) (ws : List Warning) : (s.warnAll ws).requests = s.requests := rfl
@[simp] theorem State.warnAll_result (s : State) (ws : List Warning) : (s.warnAll ws).result = s.result := rfl
@[simp] theorem State.warnAll_log (s : State) (ws : List Warning) :
    (s.warnAll ws).log = s.log ++ ws.map .warned := rfl

/-! What is yielded. -/

@[simp] theorem State.yields_mirror8 (s : State) (y : Yield) : (s.yields y).mirror8 = s.mirror8 := rfl
@[simp] theorem State.yields_mirror24 (s : State) (y : Yield) : (s.yields y).mirror24 = s.mirror24 := rfl
@[simp] theorem State.yields_mirror16 (s : State) (y : Yield) : (s.yields y).mirror16 = s.mirror16 := rfl
@[simp] theorem State.yields_cfg (s : State) (y : Yield) : (s.yields y).cfg = s.cfg := rfl
@[simp] theorem State.yields_pstate (s : State) (y : Yield) : (s.yields y).pstate = s.pstate := rfl
@[simp] theorem State.yields_mstate (s : State) (y : Yield) : (s.yields y).mstate = s.mstate := rfl
@[simp] theorem State.yields_calPeriods (s : State) (y : Yield) : (s.yields y).calPeriods = s.calPeriods := rfl
@[simp] theorem State.yields_calCount (s : State) (y : Yield) : (s.yields y).calCount = s.calCount := rfl
@[simp] theorem State.yields_normLsb (s : State) (y : Yield) : (s.yields y).normLsb = s.normLsb := rfl
@[simp] theorem State.yields_tof (s : State) (y : Yield) : (s.yields y).tof = s.tof := rfl
@[simp] theorem State.yields_delta (s : State) (y : Yield) : (s.yields y).delta = s.delta := rfl
@[simp] theorem State.yields_pulseCount (s : State) (y : Yield) : (s.yields y).pulseCount = s.pulseCount := rfl
@[simp] theorem State.yields_delivered (s : State) (y : Yield) : (s.yields y).delivered = s.delivered := rfl
@[simp] theorem State.yields_outcome (s : State) (y : Yield) : (s.yields y).outcome = s.outcome := rfl
@[simp] theorem State.yields_fatal (s : State) (y : Yield) : (s.yields y).fatal = s.fatal := rfl
@[simp] theorem State.yields_busOpen (s : State) (y : Yield) : (s.yields y).busOpen = s.busOpen := rfl
@[simp] theorem State.yields_busSpeed (s : State) (y : Yield) : (s.yields y).busSpeed = s.busSpeed := rfl
@[simp] theorem State.yields_pending (s : State) (y : Yield) : (s.yields y).pending = s.pending := rfl
@[simp] theorem State.yields_world (s : State) (y : Yield) : (s.yields y).world = s.world := rfl
@[simp] theorem State.yields_params (s : State) (y : Yield) : (s.yields y).params = s.params := rfl
@[simp] theorem State.yields_requests (s : State) (y : Yield) : (s.yields y).requests = s.requests := rfl
@[simp] theorem State.yields_result (s : State) (y : Yield) : (s.yields y).result = y := rfl
@[simp] theorem State.yields_log (s : State) (y : Yield) : (s.yields y).log = s.log := rfl

/-! `mstate`. -/

@[simp] theorem State.moveTo_mirror8 (s : State) (m : MState) : (s.moveTo m).mirror8 = s.mirror8 := rfl
@[simp] theorem State.moveTo_mirror24 (s : State) (m : MState) : (s.moveTo m).mirror24 = s.mirror24 := rfl
@[simp] theorem State.moveTo_mirror16 (s : State) (m : MState) : (s.moveTo m).mirror16 = s.mirror16 := rfl
@[simp] theorem State.moveTo_cfg (s : State) (m : MState) : (s.moveTo m).cfg = s.cfg := rfl
@[simp] theorem State.moveTo_pstate (s : State) (m : MState) : (s.moveTo m).pstate = s.pstate := rfl
@[simp] theorem State.moveTo_mstate (s : State) (m : MState) : (s.moveTo m).mstate = m := rfl
@[simp] theorem State.moveTo_calPeriods (s : State) (m : MState) : (s.moveTo m).calPeriods = s.calPeriods := rfl
@[simp] theorem State.moveTo_calCount (s : State) (m : MState) : (s.moveTo m).calCount = s.calCount := rfl
@[simp] theorem State.moveTo_normLsb (s : State) (m : MState) : (s.moveTo m).normLsb = s.normLsb := rfl
@[simp] theorem State.moveTo_tof (s : State) (m : MState) : (s.moveTo m).tof = s.tof := rfl
@[simp] theorem State.moveTo_delta (s : State) (m : MState) : (s.moveTo m).delta = s.delta := rfl
@[simp] theorem State.moveTo_pulseCount (s : State) (m : MState) : (s.moveTo m).pulseCount = s.pulseCount := rfl
@[simp] theorem State.moveTo_delivered (s : State) (m : MState) : (s.moveTo m).delivered = s.delivered := rfl
@[simp] theorem State.moveTo_outcome (s : State) (m : MState) : (s.moveTo m).outcome = s.outcome := rfl
@[simp] theorem State.moveTo_fatal (s : State) (m : MState) : (s.moveTo m).fatal = s.fatal := rfl
@[simp] theorem State.moveTo_busOpen (s : State) (m : MState) : (s.moveTo m).busOpen = s.busOpen := rfl
@[simp] theorem State.moveTo_busSpeed (s : State) (m : MState) : (s.moveTo m).busSpeed = s.busSpeed := rfl
@[simp] theorem State.moveTo_pending (s : State) (m : MState) : (s.moveTo m).pending = s.pending := rfl
@[simp] theorem State.moveTo_world (s : State) (m : MState) : (s.moveTo m).world = s.world := rfl
@[simp] theorem State.moveTo_params (s : State) (m : MState) : (s.moveTo m).params = s.params := rfl
@[simp] theorem State.moveTo_requests (s : State) (m : MState) : (s.moveTo m).requests = s.requests := rfl
@[simp] theorem State.moveTo_result (s : State) (m : MState) : (s.moveTo m).result = s.result := rfl
@[simp] theorem State.moveTo_log (s : State) (m : MState) : (s.moveTo m).log = s.log ++ [.moved m] := rfl

/-! `pstate`. -/

@[simp] theorem State.powerTo_mirror8 (s : State) (p : PState) : (s.powerTo p).mirror8 = s.mirror8 := rfl
@[simp] theorem State.powerTo_mirror24 (s : State) (p : PState) : (s.powerTo p).mirror24 = s.mirror24 := rfl
@[simp] theorem State.powerTo_mirror16 (s : State) (p : PState) : (s.powerTo p).mirror16 = s.mirror16 := rfl
@[simp] theorem State.powerTo_cfg (s : State) (p : PState) : (s.powerTo p).cfg = s.cfg := rfl
@[simp] theorem State.powerTo_pstate (s : State) (p : PState) : (s.powerTo p).pstate = p := rfl
@[simp] theorem State.powerTo_mstate (s : State) (p : PState) : (s.powerTo p).mstate = s.mstate := rfl
@[simp] theorem State.powerTo_calPeriods (s : State) (p : PState) : (s.powerTo p).calPeriods = s.calPeriods := rfl
@[simp] theorem State.powerTo_calCount (s : State) (p : PState) : (s.powerTo p).calCount = s.calCount := rfl
@[simp] theorem State.powerTo_normLsb (s : State) (p : PState) : (s.powerTo p).normLsb = s.normLsb := rfl
@[simp] theorem State.powerTo_tof (s : State) (p : PState) : (s.powerTo p).tof = s.tof := rfl
@[simp] theorem State.powerTo_delta (s : State) (p : PState) : (s.powerTo p).delta = s.delta := rfl
@[simp] theorem State.powerTo_pulseCount (s : State) (p : PState) : (s.powerTo p).pulseCount = s.pulseCount := rfl
@[simp] theorem State.powerTo_delivered (s : State) (p : PState) : (s.powerTo p).delivered = s.delivered := rfl
@[simp] theorem State.powerTo_outcome (s : State) (p : PState) : (s.powerTo p).outcome = s.outcome := rfl
@[simp] theorem State.powerTo_fatal (s : State) (p : PState) : (s.powerTo p).fatal = s.fatal := rfl
@[simp] theorem State.powerTo_busOpen (s : State) (p : PState) : (s.powerTo p).busOpen = s.busOpen := rfl
@[simp] theorem State.powerTo_busSpeed (s : State) (p : PState) : (s.powerTo p).busSpeed = s.busSpeed := rfl
@[simp] theorem State.powerTo_pending (s : State) (p : PState) : (s.powerTo p).pending = s.pending := rfl
@[simp] theorem State.powerTo_world (s : State) (p : PState) : (s.powerTo p).world = s.world := rfl
@[simp] theorem State.powerTo_params (s : State) (p : PState) : (s.powerTo p).params = s.params := rfl
@[simp] theorem State.powerTo_requests (s : State) (p : PState) : (s.powerTo p).requests = s.requests := rfl
@[simp] theorem State.powerTo_result (s : State) (p : PState) : (s.powerTo p).result = s.result := rfl
@[simp] theorem State.powerTo_log (s : State) (p : PState) : (s.powerTo p).log = s.log ++ [.power p] := rfl

/-! One bus transfer. -/

@[simp] theorem State.transfer_mirror8 (s : State) (tx : List Byte) : (s.transfer tx).2.mirror8 = s.mirror8 := rfl
@[simp] theorem State.transfer_mirror24 (s : State) (tx : List Byte) : (s.transfer tx).2.mirror24 = s.mirror24 := rfl
@[simp] theorem State.transfer_mirror16 (s : State) (tx : List Byte) : (s.transfer tx).2.mirror16 = s.mirror16 := rfl
@[simp] theorem State.transfer_cfg (s : State) (tx : List Byte) : (s.transfer tx).2.cfg = s.cfg := rfl
@[simp] theorem State.transfer_pstate (s : State) (tx : List Byte) : (s.transfer tx).2.pstate = s.pstate := rfl
@[simp] theorem State.transfer_mstate (s : State) (tx : List Byte) : (s.transfer tx).2.mstate = s.mstate := rfl
@[simp] theorem State.transfer_calPeriods (s : State) (tx : List Byte) :
    (s.transfer tx).2.calPeriods = s.calPeriods := rfl
@[simp] theorem State.transfer_calCount (s : State) (tx : List Byte) : (s.transfer tx).2.calCount = s.calCount := rfl
@[simp] theorem State.transfer_normLsb (s : State) (tx : List Byte) : (s.transfer tx).2.normLsb = s.normLsb := rfl
@[simp] theorem State.transfer_tof (s : State) (tx : List Byte) : (s.transfer tx).2.tof = s.tof := rfl
@[simp] theorem State.transfer_delta (s : State) (tx : List Byte) : (s.transfer tx).2.delta = s.delta := rfl
@[simp] theorem State.transfer_pulseCount (s : State) (tx : List Byte) :
    (s.transfer tx).2.pulseCount = s.pulseCount := rfl
@[simp] theorem State.transfer_delivered (s : State) (tx : List Byte) :
    (s.transfer tx).2.delivered = s.delivered := rfl
@[simp] theorem State.transfer_outcome (s : State) (tx : List Byte) : (s.transfer tx).2.outcome = s.outcome := rfl
@[simp] theorem State.transfer_fatal (s : State) (tx : List Byte) : (s.transfer tx).2.fatal = s.fatal := rfl
@[simp] theorem State.transfer_busOpen (s : State) (tx : List Byte) : (s.transfer tx).2.busOpen = s.busOpen := rfl
@[simp] theorem State.transfer_busSpeed (s : State) (tx : List Byte) : (s.transfer tx).2.busSpeed = s.busSpeed := rfl
@[simp] theorem State.transfer_pending (s : State) (tx : List Byte) : (s.transfer tx).2.pending = s.pending := rfl
@[simp] theorem State.transfer_world (s : State) (tx : List Byte) :
    (s.transfer tx).2.world = (s.world.transfer s.params tx).2 := rfl
@[simp] theorem State.transfer_params (s : State) (tx : List Byte) : (s.transfer tx).2.params = s.params := rfl
@[simp] theorem State.transfer_requests (s : State) (tx : List Byte) : (s.transfer tx).2.requests = s.requests := rfl
@[simp] theorem State.transfer_result (s : State) (tx : List Byte) : (s.transfer tx).2.result = s.result := rfl
@[simp] theorem State.transfer_log (s : State) (tx : List Byte) :
    (s.transfer tx).2.log = s.log ++ [frameNote tx (s.world.transfer s.params tx).1] := rfl

/-! A 16-bit slot recomputed. -/

@[simp] theorem State.refreshPair_mirror8 (s : State) (p : Pair) : (s.refreshPair p).mirror8 = s.mirror8 := rfl
@[simp] theorem State.refreshPair_mirror24 (s : State) (p : Pair) : (s.refreshPair p).mirror24 = s.mirror24 := rfl
@[simp] theorem State.refreshPair_mirror16 (s : State) (p : Pair) :
    (s.refreshPair p).mirror16 = s.mirror16.set p (s.pairSlot p) := rfl
@[simp] theorem State.refreshPair_cfg (s : State) (p : Pair) : (s.refreshPair p).cfg = s.cfg := rfl
@[simp] theorem State.refreshPair_pstate (s : State) (p : Pair) : (s.refreshPair p).pstate = s.pstate := rfl
@[simp] theorem State.refreshPair_mstate (s : State) (p : Pair) : (s.refreshPair p).mstate = s.mstate := rfl
@[simp] theorem State.refreshPair_calPeriods (s : State) (p : Pair) :
    (s.refreshPair p).calPeriods = s.calPeriods := rfl
@[simp] theorem State.refreshPair_calCount (s : State) (p : Pair) : (s.refreshPair p).calCount = s.calCount := rfl
@[simp] theorem State.refreshPair_normLsb (s : State) (p : Pair) : (s.refreshPair p).normLsb = s.normLsb := rfl
@[simp] theorem State.refreshPair_tof (s : State) (p : Pair) : (s.refreshPair p).tof = s.tof := rfl
@[simp] theorem State.refreshPair_delta (s : State) (p : Pair) : (s.refreshPair p).delta = s.delta := rfl
@[simp] theorem State.refreshPair_pulseCount (s : State) (p : Pair) :
    (s.refreshPair p).pulseCount = s.pulseCount := rfl
@[simp] theorem State.refreshPair_delivered (s : State) (p : Pair) :
    (s.refreshPair p).delivered = s.delivered := rfl
@[simp] theorem State.refreshPair_outcome (s : State) (p : Pair) : (s.refreshPair p).outcome = s.outcome := rfl
@[simp] theorem State.refreshPair_fatal (s : State) (p : Pair) : (s.refreshPair p).fatal = s.fatal := rfl
@[simp] theorem State.refreshPair_busOpen (s : State) (p : Pair) : (s.refreshPair p).busOpen = s.busOpen := rfl
@[simp] theorem State.refreshPair_busSpeed (s : State) (p : Pair) : (s.refreshPair p).busSpeed = s.busSpeed := rfl
@[simp] theorem State.refreshPair_pending (s : State) (p : Pair) : (s.refreshPair p).pending = s.pending := rfl
@[simp] theorem State.refreshPair_world (s : State) (p : Pair) : (s.refreshPair p).world = s.world := rfl
@[simp] theorem State.refreshPair_params (s : State) (p : Pair) : (s.refreshPair p).params = s.params := rfl
@[simp] theorem State.refreshPair_requests (s : State) (p : Pair) : (s.refreshPair p).requests = s.requests := rfl
@[simp] theorem State.refreshPair_result (s : State) (p : Pair) : (s.refreshPair p).result = s.result := rfl
@[simp] theorem State.refreshPair_log (s : State) (p : Pair) : (s.refreshPair p).log = s.log := rfl

/-! The mirror of a pair. -/

@[simp] theorem State.learn16_mirror8 (s : State) (p : Pair) (v : Half) :
    (s.learn16 p v).mirror8 =
      (s.mirror8.set (pairHi p) (Slot.fresh (hiByte v))).set (pairLo p) (Slot.fresh (loByte v)) := rfl
@[simp] theorem State.learn16_mirror24 (s : State) (p : Pair) (v : Half) :
    (s.learn16 p v).mirror24 = s.mirror24 := rfl
@[simp] theorem State.learn16_mirror16 (s : State) (p : Pair) (v : Half) :
    (s.learn16 p v).mirror16 = s.mirror16.set p (Slot.fresh v) := rfl
@[simp] theorem State.learn16_cfg (s : State) (p : Pair) (v : Half) : (s.learn16 p v).cfg = s.cfg := rfl
@[simp] theorem State.learn16_pstate (s : State) (p : Pair) (v : Half) : (s.learn16 p v).pstate = s.pstate := rfl
@[simp] theorem State.learn16_mstate (s : State) (p : Pair) (v : Half) : (s.learn16 p v).mstate = s.mstate := rfl
@[simp] theorem State.learn16_calPeriods (s : State) (p : Pair) (v : Half) :
    (s.learn16 p v).calPeriods = s.calPeriods := rfl
@[simp] theorem State.learn16_calCount (s : State) (p : Pair) (v : Half) :
    (s.learn16 p v).calCount = s.calCount := rfl
@[simp] theorem State.learn16_normLsb (s : State) (p : Pair) (v : Half) : (s.learn16 p v).normLsb = s.normLsb := rfl
@[simp] theorem State.learn16_tof (s : State) (p : Pair) (v : Half) : (s.learn16 p v).tof = s.tof := rfl
@[simp] theorem State.learn16_delta (s : State) (p : Pair) (v : Half) : (s.learn16 p v).delta = s.delta := rfl
@[simp] theorem State.learn16_pulseCount (s : State) (p : Pair) (v : Half) :
    (s.learn16 p v).pulseCount = s.pulseCount := rfl
@[simp] theorem State.learn16_delivered (s : State) (p : Pair) (v : Half) :
    (s.learn16 p v).delivered = s.delivered := rfl
@[simp] theorem State.learn16_outcome (s : State) (p : Pair) (v : Half) : (s.learn16 p v).outcome = s.outcome := rfl
@[simp] theorem State.learn16_fatal (s : State) (p : Pair) (v : Half) : (s.learn16 p v).fatal = s.fatal := rfl
@[simp] theorem State.learn16_busOpen (s : State) (p : Pair) (v : Half) : (s.learn16 p v).busOpen = s.busOpen := rfl
@[simp] theorem State.learn16_busSpeed (s : State) (p : Pair) (v : Half) :
    (s.learn16 p v).busSpeed = s.busSpeed := rfl
@[simp] theorem State.learn16_pending (s : State) (p : Pair) (v : Half) :
    (s.learn16 p v).pending = s.pending := rfl
@[simp] theorem State.learn16_world (s : State) (p : Pair) (v : Half) : (s.learn16 p v).world = s.world := rfl
@[simp] theorem State.learn16_params (s : State) (p : Pair) (v : Half) : (s.learn16 p v).params = s.params := rfl
@[simp] theorem State.learn16_requests (s : State) (p : Pair) (v : Half) :
    (s.learn16 p v).requests = s.requests := rfl
@[simp] theorem State.learn16_result (s : State) (p : Pair) (v : Half) : (s.learn16 p v).result = s.result := rfl
@[simp] theorem State.learn16_log (s : State) (p : Pair) (v : Half) : (s.learn16 p v).log = s.log := rfl

/-! The mirror of a result register. -/

@[simp] theorem State.learn24_mirror8 (s : State) (r : Reg24) (v : Word24) :
    (s.learn24 r v).mirror8 = s.mirror8 := rfl
@[simp] theorem State.learn24_mirror24 (s : State) (r : Reg24) (v : Word24) :
    (s.learn24 r v).mirror24 = s.mirror24.set r (Slot.fresh v) := rfl
@[simp] theorem State.learn24_mirror16 (s : State) (r : Reg24) (v : Word24) :
    (s.learn24 r v).mirror16 = s.mirror16 := rfl
@[simp] theorem State.learn24_cfg (s : State) (r : Reg24) (v : Word24) : (s.learn24 r v).cfg = s.cfg := rfl
@[simp] theorem State.learn24_pstate (s : State) (r : Reg24) (v : Word24) : (s.learn24 r v).pstate = s.pstate := rfl
@[simp] theorem State.learn24_mstate (s : State) (r : Reg24) (v : Word24) : (s.learn24 r v).mstate = s.mstate := rfl
@[simp] theorem State.learn24_calPeriods (s : State) (r : Reg24) (v : Word24) :
    (s.learn24 r v).calPeriods = s.calPeriods := rfl
@[simp] theorem State.learn24_calCount (s : State) (r : Reg24) (v : Word24) :
    (s.learn24 r v).calCount = s.calCount := rfl
@[simp] theorem State.learn24_normLsb (s : State) (r : Reg24) (v : Word24) :
    (s.learn24 r v).normLsb = s.normLsb := rfl
@[simp] theorem State.learn24_tof (s : State) (r : Reg24) (v : Word24) : (s.learn24 r v).tof = s.tof := rfl
@[simp] theorem State.learn24_delta (s : State) (r : Reg24) (v : Word24) : (s.learn24 r v).delta = s.delta := rfl
@[simp] theorem State.learn24_pulseCount (s : State) (r : Reg24) (v : Word24) :
    (s.learn24 r v).pulseCount = s.pulseCount := rfl
@[simp] theorem State.learn24_delivered (s : State) (r : Reg24) (v : Word24) :
    (s.learn24 r v).delivered = s.delivered := rfl
@[simp] theorem State.learn24_outcome (s : State) (r : Reg24) (v : Word24) :
    (s.learn24 r v).outcome = s.outcome := rfl
@[simp] theorem State.learn24_fatal (s : State) (r : Reg24) (v : Word24) : (s.learn24 r v).fatal = s.fatal := rfl
@[simp] theorem State.learn24_busOpen (s : State) (r : Reg24) (v : Word24) :
    (s.learn24 r v).busOpen = s.busOpen := rfl
@[simp] theorem State.learn24_busSpeed (s : State) (r : Reg24) (v : Word24) :
    (s.learn24 r v).busSpeed = s.busSpeed := rfl
@[simp] theorem State.learn24_pending (s : State) (r : Reg24) (v : Word24) :
    (s.learn24 r v).pending = s.pending := rfl
@[simp] theorem State.learn24_world (s : State) (r : Reg24) (v : Word24) : (s.learn24 r v).world = s.world := rfl
@[simp] theorem State.learn24_params (s : State) (r : Reg24) (v : Word24) : (s.learn24 r v).params = s.params := rfl
@[simp] theorem State.learn24_requests (s : State) (r : Reg24) (v : Word24) :
    (s.learn24 r v).requests = s.requests := rfl
@[simp] theorem State.learn24_result (s : State) (r : Reg24) (v : Word24) : (s.learn24 r v).result = s.result := rfl
@[simp] theorem State.learn24_log (s : State) (r : Reg24) (v : Word24) : (s.learn24 r v).log = s.log := rfl

/-! The 8-bit half of the mirror. -/

@[simp] theorem State.learnAll8_mirror8 (s : State) (b : File8 Byte) :
    (s.learnAll8 b).mirror8 = b.map Slot.fresh := rfl
@[simp] theorem State.learnAll8_mirror24 (s : State) (b : File8 Byte) : (s.learnAll8 b).mirror24 = s.mirror24 := rfl
@[simp] theorem State.learnAll8_mirror16 (s : State) (b : File8 Byte) :
    (s.learnAll8 b).mirror16 =
      ⟨Slot.fresh (joinHalf b.coarseOvfH b.coarseOvfL), Slot.fresh (joinHalf b.clockOvfH b.clockOvfL),
      Slot.fresh (joinHalf b.stopMaskH b.stopMaskL)⟩ := rfl
@[simp] theorem State.learnAll8_cfg (s : State) (b : File8 Byte) : (s.learnAll8 b).cfg = s.cfg := rfl
@[simp] theorem State.learnAll8_pstate (s : State) (b : File8 Byte) : (s.learnAll8 b).pstate = s.pstate := rfl
@[simp] theorem State.learnAll8_mstate (s : State) (b : File8 Byte) : (s.learnAll8 b).mstate = s.mstate := rfl
@[simp] theorem State.learnAll8_calPeriods (s : State) (b : File8 Byte) :
    (s.learnAll8 b).calPeriods = s.calPeriods := rfl
@[simp] theorem State.learnAll8_calCount (s : State) (b : File8 Byte) : (s.learnAll8 b).calCount = s.calCount := rfl
@[simp] theorem State.learnAll8_normLsb (s : State) (b : File8 Byte) : (s.learnAll8 b).normLsb = s.normLsb := rfl
@[simp] theorem State.learnAll8_tof (s : State) (b : File8 Byte) : (s.learnAll8 b).tof = s.tof := rfl
@[simp] theorem State.learnAll8_delta (s : State) (b : File8 Byte) : (s.learnAll8 b).delta = s.delta := rfl
@[simp] theorem State.learnAll8_pulseCount (s : State) (b : File8 Byte) :
    (s.learnAll8 b).pulseCount = s.pulseCount := rfl
@[simp] theorem State.learnAll8_delivered (s : State) (b : File8 Byte) :
    (s.learnAll8 b).delivered = s.delivered := rfl
@[simp] theorem State.learnAll8_outcome (s : State) (b : File8 Byte) : (s.learnAll8 b).outcome = s.outcome := rfl
@[simp] theorem State.learnAll8_fatal (s : State) (b : File8 Byte) : (s.learnAll8 b).fatal = s.fatal := rfl
@[simp] theorem State.learnAll8_busOpen (s : State) (b : File8 Byte) : (s.learnAll8 b).busOpen = s.busOpen := rfl
@[simp] theorem State.learnAll8_busSpeed (s : State) (b : File8 Byte) : (s.learnAll8 b).busSpeed = s.busSpeed := rfl
@[simp] theorem State.learnAll8_pending (s : State) (b : File8 Byte) : (s.learnAll8 b).pending = s.pending := rfl
@[simp] theorem State.learnAll8_world (s : State) (b : File8 Byte) : (s.learnAll8 b).world = s.world := rfl
@[simp] theorem State.learnAll8_params (s : State) (b : File8 Byte) : (s.learnAll8 b).params = s.params := rfl
@[simp] theorem State.learnAll8_requests (s : State) (b : File8 Byte) : (s.learnAll8 b).requests = s.requests := rfl
@[simp] theorem State.learnAll8_result (s : State) (b : File8 Byte) : (s.learnAll8 b).result = s.result := rfl
@[simp] theorem State.learnAll8_log (s : State) (b : File8 Byte) : (s.learnAll8 b).log = s.log := rfl

/-! The 24-bit half of the mirror. -/

@[simp] theorem State.learnAll24_mirror8 (s : State) (b : File24 Word24) : (s.learnAll24 b).mirror8 = s.mirror8 := rfl
@[simp] theorem State.learnAll24_mirror24 (s : State) (b : File24 Word24) :
    (s.learnAll24 b).mirror24 = b.map Slot.fresh := rfl
@[simp] theorem State.learnAll24_mirror16 (s : State) (b : File24 Word24) :
    (s.learnAll24 b).mirror16 = s.mirror16 := rfl
@[simp] theorem State.learnAll24_cfg (s : State) (b : File24 Word24) : (s.learnAll24 b).cfg = s.cfg := rfl
@[simp] theorem State.learnAll24_pstate (s : State) (b : File24 Word24) : (s.learnAll24 b).pstate = s.pstate := rfl
@[simp] theorem State.learnAll24_mstate (s : State) (b : File24 Word24) : (s.learnAll24 b).mstate = s.mstate := rfl
@[simp] theorem State.learnAll24_calPeriods (s : State) (b : File24 Word24) :
    (s.learnAll24 b).calPeriods = s.calPeriods := rfl
@[simp] theorem State.learnAll24_calCount (s : State) (b : File24 Word24) :
    (s.learnAll24 b).calCount = s.calCount := rfl
@[simp] theorem State.learnAll24_normLsb (s : State) (b : File24 Word24) : (s.learnAll24 b).normLsb = s.normLsb := rfl
@[simp] theorem State.learnAll24_tof (s : State) (b : File24 Word24) : (s.learnAll24 b).tof = s.tof := rfl
@[simp] theorem State.learnAll24_delta (s : State) (b : File24 Word24) : (s.learnAll24 b).delta = s.delta := rfl
@[simp] theorem State.learnAll24_pulseCount (s : State) (b : File24 Word24) :
    (s.learnAll24 b).pulseCount = s.pulseCount := rfl
@[simp] theorem State.learnAll24_delivered (s : State) (b : File24 Word24) :
    (s.learnAll24 b).delivered = s.delivered := rfl
@[simp] theorem State.learnAll24_outcome (s : State) (b : File24 Word24) : (s.learnAll24 b).outcome = s.outcome := rfl
@[simp] theorem State.learnAll24_fatal (s : State) (b : File24 Word24) : (s.learnAll24 b).fatal = s.fatal := rfl
@[simp] theorem State.learnAll24_busOpen (s : State) (b : File24 Word24) : (s.learnAll24 b).busOpen = s.busOpen := rfl
@[simp] theorem State.learnAll24_busSpeed (s : State) (b : File24 Word24) :
    (s.learnAll24 b).busSpeed = s.busSpeed := rfl
@[simp] theorem State.learnAll24_pending (s : State) (b : File24 Word24) :
    (s.learnAll24 b).pending = s.pending := rfl
@[simp] theorem State.learnAll24_world (s : State) (b : File24 Word24) : (s.learnAll24 b).world = s.world := rfl
@[simp] theorem State.learnAll24_params (s : State) (b : File24 Word24) : (s.learnAll24 b).params = s.params := rfl
@[simp] theorem State.learnAll24_requests (s : State) (b : File24 Word24) :
    (s.learnAll24 b).requests = s.requests := rfl
@[simp] theorem State.learnAll24_result (s : State) (b : File24 Word24) : (s.learnAll24 b).result = s.result := rfl
@[simp] theorem State.learnAll24_log (s : State) (b : File24 Word24) : (s.learnAll24 b).log = s.log := rfl

/-! Every slot stale. -/

@[simp] theorem State.markStale_mirror8 (s : State) : s.markStale.mirror8 = s.mirror8.map Slot.marked := rfl
@[simp] theorem State.markStale_mirror24 (s : State) : s.markStale.mirror24 = s.mirror24.map Slot.marked := rfl
@[simp] theorem State.markStale_mirror16 (s : State) : s.markStale.mirror16 = s.mirror16.map Slot.marked := rfl
@[simp] theorem State.markStale_cfg (s : State) : s.markStale.cfg = s.cfg := rfl
@[simp] theorem State.markStale_pstate (s : State) : s.markStale.pstate = s.pstate := rfl
@[simp] theorem State.markStale_mstate (s : State) : s.markStale.mstate = s.mstate := rfl
@[simp] theorem State.markStale_calPeriods (s : State) : s.markStale.calPeriods = s.calPeriods := rfl
@[simp] theorem State.markStale_calCount (s : State) : s.markStale.calCount = s.calCount := rfl
@[simp] theorem State.markStale_normLsb (s : State) : s.markStale.normLsb = s.normLsb := rfl
@[simp] theorem State.markStale_tof (s : State) : s.markStale.tof = s.tof := rfl
@[simp] theorem State.markStale_delta (s : State) : s.markStale.delta = s.delta := rfl
@[simp] theorem State.markStale_pulseCount (s : State) : s.markStale.pulseCount = s.pulseCount := rfl
@[simp] theorem State.markStale_delivered (s : State) : s.markStale.delivered = s.delivered := rfl
@[simp] theorem State.markStale_outcome (s : State) : s.markStale.outcome = s.outcome := rfl
@[simp] theorem State.markStale_fatal (s : State) : s.markStale.fatal = s.fatal := rfl
@[simp] theorem State.markStale_busOpen (s : State) : s.markStale.busOpen = s.busOpen := rfl
@[simp] theorem State.markStale_busSpeed (s : State) : s.markStale.busSpeed = s.busSpeed := rfl
@[simp] theorem State.markStale_pending (s : State) : s.markStale.pending = s.pending := rfl
@[simp] theorem State.markStale_world (s : State) : s.markStale.world = s.world := rfl
@[simp] theorem State.markStale_params (s : State) : s.markStale.params = s.params := rfl
@[simp] theorem State.markStale_requests (s : State) : s.markStale.requests = s.requests := rfl
@[simp] theorem State.markStale_result (s : State) : s.markStale.result = s.result := rfl
@[simp] theorem State.markStale_log (s : State) : s.markStale.log = s.log := rfl

/-! The environment's turn. -/

@[simp] theorem State.nextTurn_mirror8 (s : State) : s.nextTurn.2.mirror8 = s.mirror8 := rfl
@[simp] theorem State.nextTurn_mirror24 (s : State) : s.nextTurn.2.mirror24 = s.mirror24 := rfl
@[simp] theorem State.nextTurn_mirror16 (s : State) : s.nextTurn.2.mirror16 = s.mirror16 := rfl
@[simp] theorem State.nextTurn_cfg (s : State) : s.nextTurn.2.cfg = s.cfg := rfl
@[simp] theorem State.nextTurn_pstate (s : State) : s.nextTurn.2.pstate = s.pstate := rfl
@[simp] theorem State.nextTurn_mstate (s : State) : s.nextTurn.2.mstate = s.mstate := rfl
@[simp] theorem State.nextTurn_calPeriods (s : State) : s.nextTurn.2.calPeriods = s.calPeriods := rfl
@[simp] theorem State.nextTurn_calCount (s : State) : s.nextTurn.2.calCount = s.calCount := rfl
@[simp] theorem State.nextTurn_normLsb (s : State) : s.nextTurn.2.normLsb = s.normLsb := rfl
@[simp] theorem State.nextTurn_tof (s : State) : s.nextTurn.2.tof = s.tof := rfl
@[simp] theorem State.nextTurn_delta (s : State) : s.nextTurn.2.delta = s.delta := rfl
@[simp] theorem State.nextTurn_pulseCount (s : State) : s.nextTurn.2.pulseCount = s.pulseCount := rfl
@[simp] theorem State.nextTurn_delivered (s : State) : s.nextTurn.2.delivered = s.delivered := rfl
@[simp] theorem State.nextTurn_outcome (s : State) : s.nextTurn.2.outcome = s.outcome := rfl
@[simp] theorem State.nextTurn_fatal (s : State) : s.nextTurn.2.fatal = s.fatal := rfl
@[simp] theorem State.nextTurn_busOpen (s : State) : s.nextTurn.2.busOpen = s.busOpen := rfl
@[simp] theorem State.nextTurn_busSpeed (s : State) : s.nextTurn.2.busSpeed = s.busSpeed := rfl
@[simp] theorem State.nextTurn_pending (s : State) : s.nextTurn.2.pending = s.pending := rfl
@[simp] theorem State.nextTurn_world (s : State) : s.nextTurn.2.world = s.around := rfl
@[simp] theorem State.nextTurn_params (s : State) : s.nextTurn.2.params = s.params := rfl
@[simp] theorem State.nextTurn_requests (s : State) : s.nextTurn.2.requests = s.requests := rfl
@[simp] theorem State.nextTurn_result (s : State) : s.nextTurn.2.result = s.result := rfl
@[simp] theorem State.nextTurn_log (s : State) : s.nextTurn.2.log = s.log := rfl

/-! A delay. -/

@[simp] theorem State.delay_mirror8 (s : State) (t : Rat) : (s.delay t).mirror8 = s.mirror8 := rfl
@[simp] theorem State.delay_mirror24 (s : State) (t : Rat) : (s.delay t).mirror24 = s.mirror24 := rfl
@[simp] theorem State.delay_mirror16 (s : State) (t : Rat) : (s.delay t).mirror16 = s.mirror16 := rfl
@[simp] theorem State.delay_cfg (s : State) (t : Rat) : (s.delay t).cfg = s.cfg := rfl
@[simp] theorem State.delay_pstate (s : State) (t : Rat) : (s.delay t).pstate = s.pstate := rfl
@[simp] theorem State.delay_mstate (s : State) (t : Rat) : (s.delay t).mstate = s.mstate := rfl
@[simp] theorem State.delay_calPeriods (s : State) (t : Rat) : (s.delay t).calPeriods = s.calPeriods := rfl
@[simp] theorem State.delay_calCount (s : State) (t : Rat) : (s.delay t).calCount = s.calCount := rfl
@[simp] theorem State.delay_normLsb (s : State) (t : Rat) : (s.delay t).normLsb = s.normLsb := rfl
@[simp] theorem State.delay_tof (s : State) (t : Rat) : (s.delay t).tof = s.tof := rfl
@[simp] theorem State.delay_delta (s : State) (t : Rat) : (s.delay t).delta = s.delta := rfl
@[simp] theorem State.delay_pulseCount (s : State) (t : Rat) : (s.delay t).pulseCount = s.pulseCount := rfl
@[simp] theorem State.delay_delivered (s : State) (t : Rat) : (s.delay t).delivered = s.delivered := rfl
@[simp] theorem State.delay_outcome (s : State) (t : Rat) : (s.delay t).outcome = s.outcome := rfl
@[simp] theorem State.delay_fatal (s : State) (t : Rat) : (s.delay t).fatal = s.fatal := rfl
@[simp] theorem State.delay_busOpen (s : State) (t : Rat) : (s.delay t).busOpen = s.busOpen := rfl
@[simp] theorem State.delay_busSpeed (s : State) (t : Rat) : (s.delay t).busSpeed = s.busSpeed := rfl
@[simp] theorem State.delay_pending (s : State) (t : Rat) : (s.delay t).pending = s.pending := rfl
@[simp] theorem State.delay_world (s : State) (t : Rat) : (s.delay t).world = s.world.delay s.params t := rfl
@[simp] theorem State.delay_params (s : State) (t : Rat) : (s.delay t).params = s.params := rfl
@[simp] theorem State.delay_requests (s : State) (t : Rat) : (s.delay t).requests = s.requests := rfl
@[simp] theorem State.delay_result (s : State) (t : Rat) : (s.delay t).result = s.result := rfl
@[simp] theorem State.delay_log (s : State) (t : Rat) : (s.delay t).log = s.log := rfl

/-! A wait for a line. -/

@[simp] theorem State.waitLine_mirror8 (s : State) (role : PinRole) (level : Bool) (d : Rat) :
    (s.waitLine role level d).2.mirror8 = s.mirror8 := rfl
@[simp] theorem State.waitLine_mirror24 (s : State) (role : PinRole) (level : Bool) (d : Rat) :
    (s.waitLine role level d).2.mirror24 = s.mirror24 := rfl
@[simp] theorem State.waitLine_mirror16 (s : State) (role : PinRole) (level : Bool) (d : Rat) :
    (s.waitLine role level d).2.mirror16 = s.mirror16 := rfl
@[simp] theorem State.waitLine_cfg (s : State) (role : PinRole) (level : Bool) (d : Rat) :
    (s.waitLine role level d).2.cfg = s.cfg := rfl
@[simp] theorem State.waitLine_pstate (s : State) (role : PinRole) (level : Bool) (d : Rat) :
    (s.waitLine role level d).2.pstate = s.pstate := rfl
@[simp] theorem State.waitLine_mstate (s : State) (role : PinRole) (level : Bool) (d : Rat) :
    (s.waitLine role level d).2.mstate = s.mstate := rfl
@[simp] theorem State.waitLine_calPeriods (s : State) (role : PinRole) (level : Bool) (d : Rat) :
    (s.waitLine role level d).2.calPeriods = s.calPeriods := rfl
@[simp] theorem State.waitLine_calCount (s : State) (role : PinRole) (level : Bool) (d : Rat) :
    (s.waitLine role level d).2.calCount = s.calCount := rfl
@[simp] theorem State.waitLine_normLsb (s : State) (role : PinRole) (level : Bool) (d : Rat) :
    (s.waitLine role level d).2.normLsb = s.normLsb := rfl
@[simp] theorem State.waitLine_tof (s : State) (role : PinRole) (level : Bool) (d : Rat) :
    (s.waitLine role level d).2.tof = s.tof := rfl
@[simp] theorem State.waitLine_delta (s : State) (role : PinRole) (level : Bool) (d : Rat) :
    (s.waitLine role level d).2.delta = s.delta := rfl
@[simp] theorem State.waitLine_pulseCount (s : State) (role : PinRole) (level : Bool) (d : Rat) :
    (s.waitLine role level d).2.pulseCount = s.pulseCount := rfl
@[simp] theorem State.waitLine_delivered (s : State) (role : PinRole) (level : Bool) (d : Rat) :
    (s.waitLine role level d).2.delivered = s.delivered := rfl
@[simp] theorem State.waitLine_outcome (s : State) (role : PinRole) (level : Bool) (d : Rat) :
    (s.waitLine role level d).2.outcome = s.outcome := rfl
@[simp] theorem State.waitLine_fatal (s : State) (role : PinRole) (level : Bool) (d : Rat) :
    (s.waitLine role level d).2.fatal = s.fatal := rfl
@[simp] theorem State.waitLine_busOpen (s : State) (role : PinRole) (level : Bool) (d : Rat) :
    (s.waitLine role level d).2.busOpen = s.busOpen := rfl
@[simp] theorem State.waitLine_busSpeed (s : State) (role : PinRole) (level : Bool) (d : Rat) :
    (s.waitLine role level d).2.busSpeed = s.busSpeed := rfl
@[simp] theorem State.waitLine_pending (s : State) (role : PinRole) (level : Bool) (d : Rat) :
    (s.waitLine role level d).2.pending = s.pending := rfl
@[simp] theorem State.waitLine_world (s : State) (role : PinRole) (level : Bool) (d : Rat) :
    (s.waitLine role level d).2.world = (s.world.waitLine s.params role level d).2 := rfl
@[simp] theorem State.waitLine_params (s : State) (role : PinRole) (level : Bool) (d : Rat) :
    (s.waitLine role level d).2.params = s.params := rfl
@[simp] theorem State.waitLine_requests (s : State) (role : PinRole) (level : Bool) (d : Rat) :
    (s.waitLine role level d).2.requests = s.requests := rfl
@[simp] theorem State.waitLine_result (s : State) (role : PinRole) (level : Bool) (d : Rat) :
    (s.waitLine role level d).2.result = s.result := rfl
@[simp] theorem State.waitLine_log (s : State) (role : PinRole) (level : Bool) (d : Rat) :
    (s.waitLine role level d).2.log = s.log := rfl

/-! The result latches of a calibrated measurement. -/

@[simp] theorem State.latchTofs_mirror8 (s : State) (q : Rat) (c : Cfg) : (s.latchTofs q c).mirror8 = s.mirror8 := rfl
@[simp] theorem State.latchTofs_mirror24 (s : State) (q : Rat) (c : Cfg) :
    (s.latchTofs q c).mirror24 = s.mirror24 := rfl
@[simp] theorem State.latchTofs_mirror16 (s : State) (q : Rat) (c : Cfg) :
    (s.latchTofs q c).mirror16 = s.mirror16 := rfl
@[simp] theorem State.latchTofs_cfg (s : State) (q : Rat) (c : Cfg) : (s.latchTofs q c).cfg = s.cfg := rfl
@[simp] theorem State.latchTofs_pstate (s : State) (q : Rat) (c : Cfg) : (s.latchTofs q c).pstate = s.pstate := rfl
@[simp] theorem State.latchTofs_mstate (s : State) (q : Rat) (c : Cfg) : (s.latchTofs q c).mstate = s.mstate := rfl
@[simp] theorem State.latchTofs_calPeriods (s : State) (q : Rat) (c : Cfg) :
    (s.latchTofs q c).calPeriods = s.calPeriods := rfl
@[simp] theorem State.latchTofs_calCount (s : State) (q : Rat) (c : Cfg) : (s.latchTofs q c).calCount = some q := rfl
@[simp] theorem State.latchTofs_normLsb (s : State) (q : Rat) (c : Cfg) :
    (s.latchTofs q c).normLsb = some (s.params.clockPeriod / q) := rfl
@[simp] theorem State.latchTofs_tof (s : State) (q : Rat) (c : Cfg) :
    (s.latchTofs q c).tof =
      tofsOf .exact c.measMode (s.params.clockPeriod / q) s.params.clockPeriod c.avgCycles s.results24 := rfl
@[simp] theorem State.latchTofs_delta (s : State) (q : Rat) (c : Cfg) :
    (s.latchTofs q c).delta =
      deltasOf .exact (tofsOf .exact c.measMode (s.params.clockPeriod / q) s.params.clockPeriod c.avgCycles s.results24) := rfl
@[simp] theorem State.latchTofs_pulseCount (s : State) (q : Rat) (c : Cfg) :
    (s.latchTofs q c).pulseCount =
      (tofsOf .exact c.measMode (s.params.clockPeriod / q) s.params.clockPeriod c.avgCycles s.results24).count := rfl
@[simp] theorem State.latchTofs_delivered (s : State) (q : Rat) (c : Cfg) :
    (s.latchTofs q c).delivered = resultsOf s.params.float s.params.clockPeriod q c s.results24 := rfl
@[simp] theorem State.latchTofs_outcome (s : State) (q : Rat) (c : Cfg) : (s.latchTofs q c).outcome = s.outcome := rfl
@[simp] theorem State.latchTofs_fatal (s : State) (q : Rat) (c : Cfg) : (s.latchTofs q c).fatal = s.fatal := rfl
@[simp] theorem State.latchTofs_busOpen (s : State) (q : Rat) (c : Cfg) : (s.latchTofs q c).busOpen = s.busOpen := rfl
@[simp] theorem State.latchTofs_busSpeed (s : State) (q : Rat) (c : Cfg) :
    (s.latchTofs q c).busSpeed = s.busSpeed := rfl
@[simp] theorem State.latchTofs_pending (s : State) (q : Rat) (c : Cfg) :
    (s.latchTofs q c).pending = s.pending := rfl
@[simp] theorem State.latchTofs_world (s : State) (q : Rat) (c : Cfg) : (s.latchTofs q c).world = s.world := rfl
@[simp] theorem State.latchTofs_params (s : State) (q : Rat) (c : Cfg) : (s.latchTofs q c).params = s.params := rfl
@[simp] theorem State.latchTofs_requests (s : State) (q : Rat) (c : Cfg) :
    (s.latchTofs q c).requests = s.requests := rfl
@[simp] theorem State.latchTofs_result (s : State) (q : Rat) (c : Cfg) : (s.latchTofs q c).result = s.result := rfl
@[simp] theorem State.latchTofs_log (s : State) (q : Rat) (c : Cfg) : (s.latchTofs q c).log = s.log := rfl

/-! The result latches without a calibration. -/

@[simp] theorem State.latchNoCalibration_mirror8 (s : State) : s.latchNoCalibration.mirror8 = s.mirror8 := rfl
@[simp] theorem State.latchNoCalibration_mirror24 (s : State) : s.latchNoCalibration.mirror24 = s.mirror24 := rfl
@[simp] theorem State.latchNoCalibration_mirror16 (s : State) : s.latchNoCalibration.mirror16 = s.mirror16 := rfl
@[simp] theorem State.latchNoCalibration_cfg (s : State) : s.latchNoCalibration.cfg = s.cfg := rfl
@[simp] theorem State.latchNoCalibration_pstate (s : State) : s.latchNoCalibration.pstate = s.pstate := rfl
@[simp] theorem State.latchNoCalibration_mstate (s : State) : s.latchNoCalibration.mstate = s.mstate := rfl
@[simp] theorem State.latchNoCalibration_calPeriods (s : State) :
    s.latchNoCalibration.calPeriods = s.calPeriods := rfl
@[simp] theorem State.latchNoCalibration_calCount (s : State) : s.latchNoCalibration.calCount = some 0 := rfl
@[simp] theorem State.latchNoCalibration_normLsb (s : State) : s.latchNoCalibration.normLsb = none := rfl
@[simp] theorem State.latchNoCalibration_tof (s : State) : s.latchNoCalibration.tof = Tofs.none := rfl
@[simp] theorem State.latchNoCalibration_delta (s : State) : s.latchNoCalibration.delta = Deltas.none := rfl
@[simp] theorem State.latchNoCalibration_pulseCount (s : State) : s.latchNoCalibration.pulseCount = 0 := rfl
@[simp] theorem State.latchNoCalibration_delivered (s : State) :
    s.latchNoCalibration.delivered = Delivery.noCalibration := rfl
@[simp] theorem State.latchNoCalibration_outcome (s : State) : s.latchNoCalibration.outcome = s.outcome := rfl
@[simp] theorem State.latchNoCalibration_fatal (s : State) : s.latchNoCalibration.fatal = s.fatal := rfl
@[simp] theorem State.latchNoCalibration_busOpen (s : State) : s.latchNoCalibration.busOpen = s.busOpen := rfl
@[simp] theorem State.latchNoCalibration_busSpeed (s : State) : s.latchNoCalibration.busSpeed = s.busSpeed := rfl
@[simp] theorem State.latchNoCalibration_pending (s : State) : s.latchNoCalibration.pending = s.pending := rfl
@[simp] theorem State.latchNoCalibration_world (s : State) : s.latchNoCalibration.world = s.world := rfl
@[simp] theorem State.latchNoCalibration_params (s : State) : s.latchNoCalibration.params = s.params := rfl
@[simp] theorem State.latchNoCalibration_requests (s : State) : s.latchNoCalibration.requests = s.requests := rfl
@[simp] theorem State.latchNoCalibration_result (s : State) : s.latchNoCalibration.result = s.result := rfl
@[simp] theorem State.latchNoCalibration_log (s : State) : s.latchNoCalibration.log = s.log := rfl

/-! The missing calibration reported to the host. -/

@[simp] theorem State.raiseAtHost_mirror8 (s : State) : s.raiseAtHost.mirror8 = s.mirror8 := rfl
@[simp] theorem State.raiseAtHost_mirror24 (s : State) : s.raiseAtHost.mirror24 = s.mirror24 := rfl
@[simp] theorem State.raiseAtHost_mirror16 (s : State) : s.raiseAtHost.mirror16 = s.mirror16 := rfl
@[simp] theorem State.raiseAtHost_cfg (s : State) : s.raiseAtHost.cfg = s.cfg := rfl
@[simp] theorem State.raiseAtHost_pstate (s : State) : s.raiseAtHost.pstate = s.pstate := rfl
@[simp] theorem State.raiseAtHost_mstate (s : State) : s.raiseAtHost.mstate = s.mstate := rfl
@[simp] theorem State.raiseAtHost_calPeriods (s : State) : s.raiseAtHost.calPeriods = s.calPeriods := rfl
@[simp] theorem State.raiseAtHost_calCount (s : State) : s.raiseAtHost.calCount = s.calCount := rfl
@[simp] theorem State.raiseAtHost_normLsb (s : State) : s.raiseAtHost.normLsb = s.normLsb := rfl
@[simp] theorem State.raiseAtHost_tof (s : State) : s.raiseAtHost.tof = s.tof := rfl
@[simp] theorem State.raiseAtHost_delta (s : State) : s.raiseAtHost.delta = s.delta := rfl
@[simp] theorem State.raiseAtHost_pulseCount (s : State) : s.raiseAtHost.pulseCount = s.pulseCount := rfl
@[simp] theorem State.raiseAtHost_delivered (s : State) : s.raiseAtHost.delivered = s.delivered := rfl
@[simp] theorem State.raiseAtHost_fatal (s : State) : s.raiseAtHost.fatal = s.fatal := rfl
@[simp] theorem State.raiseAtHost_busOpen (s : State) : s.raiseAtHost.busOpen = s.busOpen := rfl
@[simp] theorem State.raiseAtHost_busSpeed (s : State) : s.raiseAtHost.busSpeed = s.busSpeed := rfl
@[simp] theorem State.raiseAtHost_pending (s : State) : s.raiseAtHost.pending = s.pending := rfl
@[simp] theorem State.raiseAtHost_world (s : State) : s.raiseAtHost.world = s.world := rfl
@[simp] theorem State.raiseAtHost_params (s : State) : s.raiseAtHost.params = s.params := rfl
@[simp] theorem State.raiseAtHost_requests (s : State) : s.raiseAtHost.requests = s.requests := rfl
@[simp] theorem State.raiseAtHost_result (s : State) : s.raiseAtHost.result = .outcome .noCalibration := rfl
@[simp] theorem State.raiseAtHost_outcome (s : State) :
    s.raiseAtHost.outcome = s.outcome := rfl

/-! An outcome reported. -/

@[simp] theorem State.finish_mirror8 (s : State) (o : MeasOutcome) : (s.finish o).mirror8 = s.mirror8 := rfl
@[simp] theorem State.finish_mirror24 (s : State) (o : MeasOutcome) : (s.finish o).mirror24 = s.mirror24 := rfl
@[simp] theorem State.finish_mirror16 (s : State) (o : MeasOutcome) : (s.finish o).mirror16 = s.mirror16 := rfl
@[simp] theorem State.finish_cfg (s : State) (o : MeasOutcome) : (s.finish o).cfg = s.cfg := rfl
@[simp] theorem State.finish_pstate (s : State) (o : MeasOutcome) : (s.finish o).pstate = s.pstate := rfl
@[simp] theorem State.finish_mstate (s : State) (o : MeasOutcome) : (s.finish o).mstate = .idle := rfl
@[simp] theorem State.finish_calPeriods (s : State) (o : MeasOutcome) : (s.finish o).calPeriods = s.calPeriods := rfl
@[simp] theorem State.finish_calCount (s : State) (o : MeasOutcome) : (s.finish o).calCount = s.calCount := rfl
@[simp] theorem State.finish_normLsb (s : State) (o : MeasOutcome) : (s.finish o).normLsb = s.normLsb := rfl
@[simp] theorem State.finish_tof (s : State) (o : MeasOutcome) : (s.finish o).tof = s.tof := rfl
@[simp] theorem State.finish_delta (s : State) (o : MeasOutcome) : (s.finish o).delta = s.delta := rfl
@[simp] theorem State.finish_pulseCount (s : State) (o : MeasOutcome) : (s.finish o).pulseCount = s.pulseCount := rfl
@[simp] theorem State.finish_delivered (s : State) (o : MeasOutcome) : (s.finish o).delivered = s.delivered := rfl
@[simp] theorem State.finish_outcome (s : State) (o : MeasOutcome) : (s.finish o).outcome = some o := rfl
@[simp] theorem State.finish_fatal (s : State) (o : MeasOutcome) : (s.finish o).fatal = s.fatal := rfl
@[simp] theorem State.finish_busOpen (s : State) (o : MeasOutcome) : (s.finish o).busOpen = s.busOpen := rfl
@[simp] theorem State.finish_busSpeed (s : State) (o : MeasOutcome) : (s.finish o).busSpeed = s.busSpeed := rfl
@[simp] theorem State.finish_pending (s : State) (o : MeasOutcome) : (s.finish o).pending = s.pending := rfl
@[simp] theorem State.finish_world (s : State) (o : MeasOutcome) : (s.finish o).world = s.world := rfl
@[simp] theorem State.finish_params (s : State) (o : MeasOutcome) : (s.finish o).params = s.params := rfl
@[simp] theorem State.finish_requests (s : State) (o : MeasOutcome) : (s.finish o).requests = s.requests := rfl
@[simp] theorem State.finish_result (s : State) (o : MeasOutcome) : (s.finish o).result = .outcome o := rfl
@[simp] theorem State.finish_log (s : State) (o : MeasOutcome) : (s.finish o).log = s.log ++ [.moved .idle] := rfl

/-! A transfer's state. -/

@[simp] theorem State.exchanged_mirror8 (s : State) (w : World) (o : Observation) :
    (s.exchanged w o).mirror8 = s.mirror8 := rfl
@[simp] theorem State.exchanged_mirror24 (s : State) (w : World) (o : Observation) :
    (s.exchanged w o).mirror24 = s.mirror24 := rfl
@[simp] theorem State.exchanged_mirror16 (s : State) (w : World) (o : Observation) :
    (s.exchanged w o).mirror16 = s.mirror16 := rfl
@[simp] theorem State.exchanged_cfg (s : State) (w : World) (o : Observation) :
    (s.exchanged w o).cfg = s.cfg := rfl
@[simp] theorem State.exchanged_pstate (s : State) (w : World) (o : Observation) :
    (s.exchanged w o).pstate = s.pstate := rfl
@[simp] theorem State.exchanged_mstate (s : State) (w : World) (o : Observation) :
    (s.exchanged w o).mstate = s.mstate := rfl
@[simp] theorem State.exchanged_calPeriods (s : State) (w : World) (o : Observation) :
    (s.exchanged w o).calPeriods = s.calPeriods := rfl
@[simp] theorem State.exchanged_calCount (s : State) (w : World) (o : Observation) :
    (s.exchanged w o).calCount = s.calCount := rfl
@[simp] theorem State.exchanged_normLsb (s : State) (w : World) (o : Observation) :
    (s.exchanged w o).normLsb = s.normLsb := rfl
@[simp] theorem State.exchanged_tof (s : State) (w : World) (o : Observation) :
    (s.exchanged w o).tof = s.tof := rfl
@[simp] theorem State.exchanged_delta (s : State) (w : World) (o : Observation) :
    (s.exchanged w o).delta = s.delta := rfl
@[simp] theorem State.exchanged_pulseCount (s : State) (w : World) (o : Observation) :
    (s.exchanged w o).pulseCount = s.pulseCount := rfl
@[simp] theorem State.exchanged_delivered (s : State) (w : World) (o : Observation) :
    (s.exchanged w o).delivered = s.delivered := rfl
@[simp] theorem State.exchanged_outcome (s : State) (w : World) (o : Observation) :
    (s.exchanged w o).outcome = s.outcome := rfl
@[simp] theorem State.exchanged_fatal (s : State) (w : World) (o : Observation) :
    (s.exchanged w o).fatal = s.fatal := rfl
@[simp] theorem State.exchanged_busOpen (s : State) (w : World) (o : Observation) :
    (s.exchanged w o).busOpen = s.busOpen := rfl
@[simp] theorem State.exchanged_busSpeed (s : State) (w : World) (o : Observation) :
    (s.exchanged w o).busSpeed = s.busSpeed := rfl
@[simp] theorem State.exchanged_pending (s : State) (w : World) (o : Observation) :
    (s.exchanged w o).pending = s.pending := rfl
@[simp] theorem State.exchanged_world (s : State) (w : World) (o : Observation) :
    (s.exchanged w o).world = w := rfl
@[simp] theorem State.exchanged_params (s : State) (w : World) (o : Observation) :
    (s.exchanged w o).params = s.params := rfl
@[simp] theorem State.exchanged_requests (s : State) (w : World) (o : Observation) :
    (s.exchanged w o).requests = s.requests := rfl
@[simp] theorem State.exchanged_result (s : State) (w : World) (o : Observation) :
    (s.exchanged w o).result = s.result := rfl
@[simp] theorem State.exchanged_log (s : State) (w : World) (o : Observation) :
    (s.exchanged w o).log = s.log ++ [o] := rfl

end Sys2Proof.Machine
end

