-- ==== Sys2Proof/Laws/Ops.lean ====
section
/-! SUPPORT. What each shared operation can do, said once: how a run ends, what a transfer leaves, what a
write-verify loop can answer, what the power sequences leave. -/

namespace Sys2Proof.Machine

/-! ## Runs -/

/-- A run leaves `P` of the state it goes on from and `Q` of the state it ended in. -/
def Run.Gives (P Q : State → Prop) : Run → Prop
  | .going s => P s
  | .ended s => Q s
  | .refused _ => True

theorem Run.Gives.andThen {P P' Q : State → Prop} {r : Run} {next : State → Run} (h : r.Gives P Q)
    (k : ∀ s, P s → (next s).Gives P' Q) : (r.andThen next).Gives P' Q := by
  cases r with
  | going s => exact k s h
  | ended s => exact h
  | refused f => trivial

theorem Run.Gives.mono {P P' Q Q' : State → Prop} {r : Run} (h : r.Gives P Q) (hP : ∀ s, P s → P' s)
    (hQ : ∀ s, Q s → Q' s) : r.Gives P' Q' := by
  cases r with
  | going s => exact hP s h
  | ended s => exact hQ s h
  | refused f => trivial

theorem Run.Gives.outcome {P Q : State → Prop} {r : Run} {t : State} (h : r.Gives P Q) (k : r.outcome = .next t) :
    P t ∨ Q t := by
  cases r with
  | going s => exact .inl (by cases k; exact h)
  | ended s => exact .inr (by cases k; exact h)
  | refused f => cases k

/-- An operation that answers a next state met its precondition, and its body answers that state. -/
theorem State.attempt_next {s t : State} {refusal : Option Refusal} {body : State → Run}
    (h : s.attempt refusal body = .next t) : refusal = none ∧ (body s.begin).outcome = .next t := by
  unfold State.attempt at h
  split at h
  · cases h
  · exact ⟨rfl, h⟩

@[simp] theorem State.attempt_none (s : State) (body : State → Run) :
    s.attempt none body = (body s.begin).outcome := rfl

@[simp] theorem State.attempt_some (s : State) (r : Refusal) (body : State → Run) :
    s.attempt (some r) body = .refused r := rfl

/-! ## Preconditions -/

theorem State.commonRefusal_none {s : State} : s.commonRefusal = none ↔ s.Accepting := by
  unfold State.commonRefusal
  cases hp : s.pending <;> cases hf : s.fatal <;> cases hb : s.busOpen <;> cases hm : s.mstate <;> simp_all [State.Accepting]

theorem State.accessRefusal_none {s : State} : s.accessRefusal = none ↔ s.Accessible := by
  unfold State.accessRefusal
  cases h : s.commonRefusal with
  | none =>
    have k := State.commonRefusal_none.mp h
    cases hp : s.pstate <;> simp [firstRefusal, refuseIf, hp] <;> exact ⟨k, by simp [hp]⟩
  | some r =>
    have : ¬ s.Accepting := fun k => by simp [State.commonRefusal_none.mpr k] at h
    simp [firstRefusal, this]

theorem firstRefusal_none {l : List (Option Refusal)} : firstRefusal l = none ↔ ∀ x ∈ l, x = none := by
  induction l with
  | nil => simp [firstRefusal]
  | cons x rest ih => cases x <;> simp [firstRefusal, ih]

@[simp] theorem refuseIf_none {b : Bool} {r : Refusal} : refuseIf b r = none ↔ b = false := by
  cases b <;> simp [refuseIf]

/-! ## Transfers -/

theorem World.transfer_read (p : Params) (auto : Bool) (a : Addr) (data : List Byte) (w : World) :
    w.transfer p (commandByte auto false a :: data) =
      (w.nextTurn p).2.answer p (w.nextTurn p).1 auto a data.length := by
  simp [World.transfer]

theorem World.transfer_write (p : Params) (auto : Bool) (a : Addr) (data : List Byte) (w : World) :
    w.transfer p (commandByte auto true a :: data) =
      (echoOf (w.nextTurn p).1 data.length, { (w.nextTurn p).2 with
        target := (w.nextTurn p).2.target.accept p.layout (w.nextTurn p).1 auto a data }) := by
  simp [World.transfer]

/-- A write's answer is as long as its frame (R10, R120). -/
theorem echoOf_length (turn : Turn) (n : Nat) : (echoOf turn n).length = n + 1 := by
  unfold echoOf
  split <;> simp

theorem State.transfer_read (s : State) (auto : Bool) (a : Addr) (data : List Byte) :
    s.transfer (commandByte auto false a :: data) =
      ((s.around.answer s.params s.turn auto a data.length).1,
        s.exchanged (s.around.answer s.params s.turn auto a data.length).2
          (.frame (commandByte auto false a :: data) (s.around.answer s.params s.turn auto a data.length).1)) := by
  simp only [State.transfer, World.transfer_read, frameNote, List.headD_cons, commandWrite_commandByte]
  rfl

theorem State.transfer_write (s : State) (auto : Bool) (a : Addr) (data : List Byte) :
    (s.transfer (commandByte auto true a :: data)).2 =
      s.exchanged { s.around with target := s.around.target.accept s.params.layout s.turn auto a data }
        (.sent (commandByte auto true a :: data)) := by
  simp only [State.transfer, World.transfer_write, frameNote, List.headD_cons, commandWrite_commandByte]
  rfl

/-- RD8: a byte, on a clean transfer what a read of the register sees (R101, R160). -/
theorem State.busRd8_any (s : State) (r : Reg8) :
    ∃ b v, (s.turn.noise = .clean → b = 0x00#8 ∧ s.around.target.ReadsAs s.params.layout s.turn r v) ∧
      s.busRd8 r =
        (v, s.exchanged s.around.pointerless (.frame [commandByte false false (regAddr8 r), 0x00#8] [b, v])) := by
  unfold State.busRd8
  rw [State.transfer_read]
  cases h : s.turn.noise with
  | clean =>
    refine ⟨_, _, fun _ => ⟨rfl, Target.readout8_reads ..⟩, ?_⟩
    simp [World.answer_rd8 h, byteAt]
  | corrupt =>
    refine ⟨s.turn.data.headD 0, s.turn.data.tail.headD 0, nofun, ?_⟩
    simp [World.answer, h, takeBytes, byteAt]

/-- RD16: a pair's value, the registers' on a clean transfer (R162). -/
theorem State.busRd16_any (s : State) (p : Pair) :
    ∃ b v, (s.turn.noise = .clean → b = 0x00#8 ∧
        v = joinHalf (s.around.target.r8.get (pairHi p)) (s.around.target.r8.get (pairLo p))) ∧
      s.busRd16 p = (v, s.exchanged s.around.pointerless
        (.frame [commandByte true false (regAddrPair p), 0x00#8, 0x00#8] [b, hiByte v, loByte v])) := by
  unfold State.busRd16
  rw [State.transfer_read]
  cases h : s.turn.noise with
  | clean =>
    refine ⟨_, _, fun _ => ⟨rfl, rfl⟩, ?_⟩
    simp [World.answer_rd16 h, byteAt]
  | corrupt =>
    refine ⟨s.turn.data.headD 0, joinHalf (s.turn.data.tail.headD 0) (s.turn.data.tail.tail.headD 0),
      nofun, ?_⟩
    simp [World.answer, h, takeBytes, byteAt]

theorem bytes24_join24 (a b c : Byte) : bytes24 (join24 a b c) = [a, b, c] := by
  simp only [bytes24, join24, List.cons.injEq, and_true]
  refine ⟨?_, ?_, ?_⟩ <;> (ext i hi; simp; grind)

/-- RD24: a 24-bit value, what a read sees of the register on a clean transfer (R164, U9). -/
theorem State.busRd24_any (s : State) (r : Reg24) :
    ∃ b v, (s.turn.noise = .clean → b = 0x00#8 ∧ v = s.around.target.readout s.params.layout s.turn r) ∧
      s.busRd24 r = (v, s.exchanged s.around.pointerless
        (.frame [commandByte false false (regAddr24 r), 0x00#8, 0x00#8, 0x00#8] (b :: bytes24 v))) := by
  unfold State.busRd24
  rw [State.transfer_read]
  cases h : s.turn.noise with
  | clean =>
    refine ⟨_, _, fun _ => ⟨rfl, rfl⟩, ?_⟩
    simp [World.answer_rd24 h, byteAt, bytes24]
  | corrupt =>
    refine ⟨s.turn.data.headD 0, join24 (s.turn.data.tail.headD 0) (s.turn.data.tail.tail.headD 0)
      (s.turn.data.tail.tail.tail.headD 0), nofun, ?_⟩
    simp [World.answer, h, takeBytes, byteAt, bytes24_join24]

/-- RDALL8: eleven bytes; on a clean transfer the registers in address order, each as it stands in its turn (R165). -/
theorem State.busRdAll8_any (s : State) :
    ∃ (rx : List Byte) (w : World), rx.length = 11 ∧ World.BulkRead s.params s.turn s.around w ∧
      (s.turn.noise = .clean → rx.headD 0 = 0x00#8 ∧
        ∀ r, s.around.target.Shows8 s.params.layout r ((file8OfBytes rx.tail).get r)) ∧
      s.busRdAll8 = (file8OfBytes rx.tail,
        s.exchanged w (.frame (commandByte true false 0x00#6 :: zeros 10) rx)) := by
  obtain ⟨rx, w, e, hl, hb, hc⟩ := World.answer_rdall8 s.params s.turn s.around
  refine ⟨rx, w, hl, hb, hc, ?_⟩
  unfold State.busRdAll8
  rw [State.transfer_read, show (zeros 10).length = 10 from rfl, e]

/-- RDALL24: forty bytes; on a clean transfer from a target that is not busy the thirteen registers in address order
(R166). -/
theorem State.busRdAll24_any (s : State) :
    ∃ (rx : List Byte) (w : World), rx.length = 40 ∧ World.BulkRead s.params s.turn s.around w ∧
      (s.turn.noise = .clean → rx.headD 0 = 0x00#8 ∧
        (s.around.target.busy = false → rx = 0x00#8 :: s.around.target.r24.toList.flatMap bytes24)) ∧
      s.busRdAll24 = (file24OfBytes rx.tail,
        s.exchanged w (.frame (commandByte true false 0x10#6 :: zeros 39) rx)) := by
  obtain ⟨rx, w, e, hl, hb, hc⟩ := World.answer_rdall24 s.params s.turn s.around
  refine ⟨rx, w, hl, hb, hc, ?_⟩
  unfold State.busRdAll24
  rw [State.transfer_read, show (zeros 39).length = 39 from rfl, e]

/-- WR8: a byte is stored, the one sent on a clean transfer, any other on a corrupt one; no other register is
addressed (R97, R161). -/
theorem State.busWr8_any (s : State) (r : Reg8) (v : Byte) :
    ∃ b, (s.turn.noise = .clean → b = v) ∧
      s.busWr8 r v = s.exchanged (s.stored8 r b) (.sent [commandByte false true (regAddr8 r), v]) := by
  unfold State.busWr8
  rw [State.transfer_write]
  cases h : s.turn.noise with
  | clean => exact ⟨v, fun _ => rfl, by rw [Target.accept_wr8 h]; rfl⟩
  | corrupt =>
    refine ⟨s.turn.data.headD 0, nofun, ?_⟩
    simp [Target.accept, h, takeBytes, Target.memWrite, Target.storeAtPointer, Target.movePointer,
      Target.store_pointer, State.stored8, World.store8]

/-- WR16: two bytes are stored, those sent on a clean transfer (R97, R163). -/
theorem State.busWr16_any (s : State) (p : Pair) (v : Half) :
    ∃ b, (s.turn.noise = .clean → b = v) ∧
      s.busWr16 p v = s.exchanged (s.stored16 p b)
        (.sent [commandByte true true (regAddrPair p), hiByte v, loByte v]) := by
  unfold State.busWr16
  rw [State.transfer_write]
  cases h : s.turn.noise with
  | clean => exact ⟨v, fun _ => rfl, by rw [Target.accept_wr16 h]; rfl⟩
  | corrupt =>
    refine ⟨joinHalf (s.turn.data.headD 0) (s.turn.data.tail.headD 0), nofun, ?_⟩
    simp [Target.accept, h, takeBytes, Target.memWrite, Target.storeAtPointer, Target.movePointer,
      Target.store_pointer, State.stored16, World.store16]

/-! ## Turns and stores -/

/-- The command bytes of the five single-register and pair frames (R122 to R124). -/
theorem commandByte_rd8 (r : Reg8) : commandByte false false (regAddr8 r) = (regAddr8 r).setWidth 8 := by
  cases r <;> rfl

theorem commandByte_wr8 (r : Reg8) : commandByte false true (regAddr8 r) = 0x40#8 ||| (regAddr8 r).setWidth 8 := by
  cases r <;> rfl

theorem commandByte_rd16 (r : Pair) : commandByte true false (regAddrPair r) = 0x80#8 ||| (regAddrPair r).setWidth 8 := by
  cases r <;> rfl

theorem commandByte_wr16 (r : Pair) : commandByte true true (regAddrPair r) = 0xC0#8 ||| (regAddrPair r).setWidth 8 := by
  cases r <;> rfl

theorem commandByte_rd24 (r : Reg24) : commandByte false false (regAddr24 r) = (regAddr24 r).setWidth 8 := by
  cases r <;> rfl

@[simp] theorem State.begin_turn (s : State) : s.begin.turn = s.turn := rfl

@[simp] theorem State.begin_around (s : State) : s.begin.around = s.around := rfl

/-- What the environment's turn before an action can do. -/
theorem State.around_follows (s : State) : s.world.Follows s.params s.around := World.nextTurn_follows ..

/-- It takes one turn of the script. -/
theorem State.around_script (s : State) : s.around.script = s.world.script.drop 1 := by
  exact World.nextTurn_script ..

/-- The next turn of a clean stretch is clean. -/
theorem State.CleanNext.turn_clean {s : State} {n : Nat} (h : s.CleanNext (n+1)) : s.turn.noise = .clean := by
  obtain ⟨h1, h2⟩ := h
  unfold State.turn World.nextTurn World.turnUnder World.takeTurn
  cases hs : s.world.script with
  | nil => simp [hs] at h1
  | cons t rest => simp only [hs] at h2 ⊢; exact h2 t (by simp)

/-- A clean stretch is as much shorter as turns were taken. -/
theorem State.CleanNext.after {s t : State} {n m k : Nat} (h : s.CleanNext (n + m))
    (e : t.world.script = s.world.script.drop k) (hk : k ≤ m) : t.CleanNext n := by
  obtain ⟨h1, h2⟩ := h
  refine ⟨by rw [e, List.length_drop]; omega, ?_⟩
  rw [e]
  intro turn ht
  apply h2
  rw [List.take_drop] at ht
  have : s.world.script.take (k + n) = (s.world.script.take (n + m)).take (k + n) := by
    rw [List.take_take, Nat.min_eq_left (by omega)]
  rw [this] at ht
  exact List.mem_of_mem_take (List.mem_of_mem_drop ht)

/-- A stored byte is held, by every register but INT_STATUS (R96). -/
theorem Target.store_get (L : Layout) (turn : Turn) (r : Reg8) (b : Byte) (t : Target) (h : r ≠ .intStatus) :
    (t.store L turn r b).r8.get r = b := by
  unfold Target.store Target.arm Target.freshArm Target.wedge
  cases r <;> simp_all [File8.set, File8.get]
  repeat' split
  all_goals rfl

/-- A store to one register changes no other but INT_STATUS (R96, R260). -/
theorem Target.store_other (L : Layout) (turn : Turn) (r x : Reg8) (v : Byte) (t : Target) (h : x ≠ r)
    (hx : x ≠ .intStatus) : (t.store L turn r v).r8.get x = t.r8.get x := by
  simp only [Target.store, Target.arm, Target.freshArm, Target.wedge]
  cases r <;> cases x <;> simp_all [File8.get, File8.set] <;> (repeat' split) <;> simp_all

/-- A stored pair is held; no other register changes (R96). -/
theorem World.store16_registers (L : Layout) (turn : Turn) (p : Pair) (v : Half) (w : World) :
    (w.store16 L turn p v).target.r8 = (w.target.r8.set (pairHi p) (hiByte v)).set (pairLo p) (loByte v) ∧
    (w.store16 L turn p v).target.r24 = w.target.r24 := by
  cases p <;> exact ⟨rfl, rfl⟩

end Sys2Proof.Machine
end

