-- ==== Sys2Proof/Laws/PerInstr.lean ====
section
/-! SUPPORT. What every instruction's encoding is like, one lemma per instruction: a frame has its command byte's legal
length (R140), a host operation the number of operands R148 gives its code. -/

open Sys2Proof Sys2Proof.Machine

namespace Sys2Proof.Laws.EncodeShape

/-- How many operands the host operation of a code takes (R148). -/
def arity (code : BitVec 4) : Nat :=
  match code.toNat with
  | 0x1 => 2
  | 0x4 => 10
  | 0x7 => 1
  | 0xC => 1
  | 0xE => 2
  | _ => 0

/-- The instruction's request has the shape the spec gives it. -/
def Statement (i : Instr) : Prop :=
  match encode i with
  | .frame bytes => ∃ c data, bytes = c :: data ∧ bytes.length = frameLength c
  | .hop code operands => operands.length = arity code

theorem rd8 (r : Reg8) : Statement (.rd8 r) :=
  ⟨_, _, rfl, by cases r <;> rfl⟩

theorem wr8 (r : Reg8) (v : Byte) : Statement (.wr8 r v) :=
  ⟨_, _, rfl, by cases r <;> rfl⟩

theorem rd16 (p : Pair) : Statement (.rd16 p) :=
  ⟨_, _, rfl, by cases p <;> rfl⟩

theorem wr16 (p : Pair) (v : Half) : Statement (.wr16 p v) :=
  ⟨_, _, rfl, by cases p <;> rfl⟩

theorem rd24 (r : Reg24) : Statement (.rd24 r) :=
  ⟨_, _, rfl, by cases r <;> rfl⟩

theorem rdall8 : Statement .rdall8 :=
  ⟨_, _, rfl, rfl⟩

theorem rdall24 : Statement .rdall24 :=
  ⟨_, _, rfl, rfl⟩

theorem openBus : Statement .openBus := rfl

theorem setClockSpeed (requested : Rat) (force : Bool) : Statement (.setClockSpeed requested force) := rfl

theorem powerOff : Statement .powerOff := rfl

theorem powerOn : Statement .powerOn := rfl

theorem configure (request : ConfigRequest) : Statement (.configure request) := rfl

theorem configureRetain : Statement .configureRetain := rfl

theorem measure : Statement .measure := rfl

theorem clearStatus (force : Bool) : Statement (.clearStatus force) := rfl

theorem readRegs8 : Statement .readRegs8 := rfl

theorem readRegs24 : Statement .readRegs24 := rfl

theorem computeTofs : Statement .computeTofs := rfl

theorem cleanup : Statement .cleanup := rfl

theorem regRead (name : RegName) : Statement (.regRead name) := rfl

theorem hardRecover : Statement .hardRecover := rfl

theorem regWrite (name : RegName) (value : Nat) : Statement (.regWrite name value) := rfl

theorem reservedHopF : Statement .reservedHopF := rfl

end Sys2Proof.Laws.EncodeShape
end

