-- ==== Sys2Proof/Laws/Power.lean ====
section
/-! SUPPORT. What driving a line, OFF and ON leave, said once per operation. -/

namespace Sys2Proof.Machine

/-- What turns of the environment and drives of lines other than ENABLE can do: ENABLE and what is kept of its fall stay,
the clock does not run back, a target held in reset stays there, and a running one only drifts. -/
structure World.Goes (p : Params) (w w' : World) : Prop where
  enable : w'.lines.enable = w.lines.enable
  low    : w'.lowSince = w.lowSince
  time   : w.time ≤ w'.time
  held   : w.held p = true → w.target = Target.inReset p → w'.target = Target.inReset p
  target : w.target.Drifts p.layout w'.target

theorem World.Follows.goes {p : Params} {w w' : World} (f : w.Follows p w') : w.Goes p w' :=
  ⟨by rw [f.lines], f.low, f.time, f.inReset, f.target⟩

theorem World.Goes.refl (p : Params) (w : World) : w.Goes p w := (World.Follows.refl p w).goes

theorem World.Goes.keepsHeld {p : Params} {w w' : World} (h : w.Goes p w') : w'.held p = w.held p := by
  simp [World.held, h.enable]

theorem World.Goes.trans {p : Params} {a b c : World} (h : a.Goes p b) (k : b.Goes p c) : a.Goes p c :=
  ⟨k.enable.trans h.enable, k.low.trans h.low, h.time.trans k.time,
   fun hh ht => k.held (h.keepsHeld.trans hh) (h.held hh ht), h.target.trans k.target⟩

theorem World.drive_goes (p : Params) (turn : Turn) (role : PinRole) (level : Bool) (w : World) (h : role ≠ .enable) :
    w.Goes p (w.drive p turn role level) := by
  have t := World.drive_target p turn role level w h
  have f := World.drive_frame p turn role level w
  refine ⟨?_, ?_, f.1.symm.le, fun hh ht => (t.2 hh).trans ht, t.1⟩
  · rw [f.2.2]; cases role <;> first | rfl | exact absurd rfl h
  · cases role <;> first | rfl | exact absurd rfl h

/-! ## Driving a line -/

/-- Driving a line changes the world and the log only (R10). -/
theorem State.driveLine_eq (s : State) (role : PinRole) (l : Bool) :
    s.driveLine role l = { s with
      world := (s.driveLine role l).world
      log := s.log ++ if s.params.pins.has role then [.drive role l] else [] } := by
  unfold State.driveLine
  split <;> simp_all [State.note, State.nextTurn]

/-- The world after a line was driven: the environment's turn, then the drive, where the line is assigned (R4, R10). -/
theorem State.driveLine_world (s : State) (role : PinRole) (l : Bool) :
    (s.driveLine role l).world =
      if s.params.pins.has role then s.around.drive s.params s.turn role l else s.world := by
  unfold State.driveLine
  split
  · rfl
  · rfl

theorem State.warnUnassigned_eq (s : State) (role : PinRole) :
    s.warnUnassigned role =
      { s with log := s.log ++ if s.params.pins.has role then [] else [.warned (.unassigned role)] } := by
  unfold State.warnUnassigned
  split <;> simp_all [State.warnAll]

@[simp] theorem State.warnUnassigned_world (s : State) (role : PinRole) : (s.warnUnassigned role).world = s.world := by
  rw [State.warnUnassigned_eq]

@[simp] theorem State.warnUnassigned_params (s : State) (role : PinRole) :
    (s.warnUnassigned role).params = s.params := by
  rw [State.warnUnassigned_eq]

theorem State.driveOrWarn_eq (s : State) (role : PinRole) (l : Bool) :
    s.driveOrWarn role l = { s with
      world := (s.driveOrWarn role l).world
      log := s.log ++ [driveNote s.params.pins role l] } := by
  unfold State.driveOrWarn driveNote
  rw [State.driveLine_eq, State.warnUnassigned_eq]
  cases h : s.params.pins.has role <;> simp

theorem State.driveOrWarn_world (s : State) (role : PinRole) (l : Bool) :
    (s.driveOrWarn role l).world =
      if s.params.pins.has role then s.around.drive s.params s.turn role l else s.world := by
  unfold State.driveOrWarn
  rw [State.driveLine_world, State.warnUnassigned_eq]
  rfl

/-- Driving a line takes the clock on, leaves no pointer behind, and takes at most one turn of the script. -/
theorem State.driveLine_onward (s : State) (role : PinRole) (l : Bool) :
    s.world.time ≤ (s.driveLine role l).world.time ∧
    (s.world.target.ap = none → (s.driveLine role l).world.target.ap = none) ∧
    ∃ k ≤ 1, (s.driveLine role l).world.script = s.world.script.drop k := by
  have f := State.around_follows s
  rw [State.driveLine_world]
  split
  · refine ⟨?_, fun h => World.drive_pointer _ _ _ _ _ (f.target.pointer.trans h), 1, le_refl _, ?_⟩
    · rw [(World.drive_frame ..).1]; exact f.time
    · rw [(World.drive_frame ..).2.1]; exact s.around_script
  · exact ⟨le_refl _, id, 0, by omega, rfl⟩

/-- Driving a line other than ENABLE. -/
theorem State.driveLine_goes (s : State) (role : PinRole) (l : Bool) (h : role ≠ .enable) :
    s.world.Goes s.params (s.driveLine role l).world := by
  rw [State.driveLine_world]
  split
  · exact (State.around_follows s).goes.trans (World.drive_goes _ _ _ _ _ h)
  · exact .refl ..

theorem State.driveOrWarn_driveLine (s : State) (role : PinRole) (l : Bool) :
    (s.driveOrWarn role l).world = (s.driveLine role l).world := by
  rw [State.driveOrWarn_world, State.driveLine_world]

/-- The lines after a line was driven. -/
theorem State.driveLine_lines (s : State) (role : PinRole) (l : Bool) :
    (s.driveLine role l).world.lines =
      if s.params.pins.has role then s.world.lines.driven role l else s.world.lines := by
  rw [State.driveLine_world]
  split
  · rw [(World.drive_frame ..).2.2, (State.around_follows s).lines]
  · rfl

theorem State.driveLine_params (s : State) (role : PinRole) (l : Bool) : (s.driveLine role l).params = s.params := by
  rw [State.driveLine_eq]

/-! ## OFF -/

/-- OFF's body, field by field (R195). -/
theorem State.powerDown_eq (s : State) : s.powerDown = { s with
    world := s.powerDown.world
    mirror8 := s.mirror8.map Slot.marked
    mirror24 := s.mirror24.map Slot.marked
    mirror16 := s.mirror16.map Slot.marked
    pstate := .off
    log := s.log ++ [driveNote s.params.pins .enable false, .power .off] } := by
  simp only [State.powerDown]
  rw [State.driveOrWarn_eq]
  simp [State.note, State.powerTo, State.markStale, State.delay]

/-- The world OFF leaves (R195). -/
theorem State.powerDown_world (s : State) :
    s.powerDown.world = (s.driveLine .enable false).world.delay s.params s.params.tResetMin := by
  simp only [State.powerDown, State.powerTo_world, State.markStale_world, State.delay_world]
  rw [State.driveOrWarn_driveLine, State.driveOrWarn_eq]

/-- OFF resets the target where ENABLE is assigned, which has then been low for T_RESET_MIN (R195, R361, R372). -/
theorem State.powerDown_resets (s : State) (h : s.params.pins.enable = true) :
    s.powerDown.world.target = Target.inReset s.params ∧
      s.powerDown.world.lines = { s.world.lines with enable := false } ∧
      s.powerDown.world.lowSince + s.params.tResetMin ≤ s.powerDown.world.time := by
  have e : (s.driveLine .enable false).world = s.around.enableLow s.params := by
    rw [State.driveLine_world]; simp [Pins.has, h, World.drive]
  rw [State.powerDown_world, e]
  have f := World.delay_follows s.params s.params.tResetMin (s.around.enableLow s.params)
  have g := World.enableLow_held s.params s.around h
  refine ⟨f.inReset g.1 g.2, ?_, ?_⟩
  · rw [f.lines]; simp [World.enableLow, (State.around_follows s).lines]
  · rw [f.low]
    have a := World.enableLow_since s.params s.around
    have b := World.delay_time s.params s.params.tResetMin (s.around.enableLow s.params)
    have c : (s.around.enableLow s.params).time = s.around.time := rfl
    linarith

/-- OFF moves no line where ENABLE is not assigned (R195). -/
theorem State.powerDown_lines (s : State) (h : s.params.pins.enable = false) :
    s.powerDown.world.lines = s.world.lines := by
  rw [State.powerDown_world, (World.delay_follows ..).lines, State.driveLine_lines]
  simp [Pins.has, h]

/-- OFF takes at least the reset interval (R195). -/
theorem State.powerDown_time (s : State) : s.world.time + s.params.tResetMin ≤ s.powerDown.world.time := by
  rw [State.powerDown_world]
  have a := World.delay_time s.params s.params.tResetMin (s.driveLine .enable false).world
  have b := (s.driveLine_onward .enable false).1
  linarith

theorem State.powerDown_forward (s : State) : s.world.time ≤ s.powerDown.world.time := by
  rw [State.powerDown_world]
  exact (s.driveLine_onward .enable false).1.trans (World.delay_follows ..).time

/-- OFF takes at most three turns of the script. -/
theorem State.powerDown_script (s : State) : ∃ k ≤ 3, s.powerDown.world.script = s.world.script.drop k := by
  obtain ⟨k, hk, e⟩ := (s.driveLine_onward .enable false).2.2
  refine ⟨k + 2, by omega, ?_⟩
  rw [State.powerDown_world, World.delay_script, e, List.drop_drop]

/-- Coherence of the 16-bit slots as an equation (R44). -/
theorem State.mirrorCoherent_iff (s : State) : s.mirrorCoherent = true ↔
    s.mirror16 = ⟨s.pairSlot .coarseOvf, s.pairSlot .clockOvf, s.pairSlot .stopMask⟩ := by
  simp [State.mirrorCoherent]

/-- OFF keeps the 16-bit slots coherent. -/
theorem State.powerDown_coherent (s : State) (h : s.mirrorCoherent = true) : s.powerDown.mirrorCoherent = true := by
  rw [State.mirrorCoherent_iff] at h ⊢
  rw [State.powerDown_eq]
  simp [h, FilePair.map, State.pairSlot, joinSlots, Slot.marked]

/-- OFF leaves no pointer behind. -/
theorem State.powerDown_pointer (s : State) (h : s.world.target.ap = none) : s.powerDown.world.target.ap = none := by
  rw [State.powerDown_world]
  exact (World.delay_follows ..).target.pointer.trans ((s.driveLine_onward .enable false).2.1 h)

/-- After OFF a held target is in reset. -/
theorem State.powerDown_held (s : State) : s.powerDown.heldInReset = true := by
  have p : s.powerDown.params = s.params := by rw [State.powerDown_eq]
  cases k : s.params.pins.enable
  · simp [State.heldInReset, World.held, p, k]
  · simp [State.heldInReset, p, (State.powerDown_resets s k).1]

/-! ## ON -/

/-- ON's body, field by field (R196). -/
theorem State.powerUp_eq (s : State) : s.powerUp = { s with
    world := s.powerUp.world
    pstate := .on
    log := s.log ++ [driveNote s.params.pins .oscEnable true, driveNote s.params.pins .enable true, .power .on] } := by
  simp only [State.powerUp]
  rw [State.driveOrWarn_eq, State.driveOrWarn_eq]
  simp [State.note, State.powerTo, State.delay]

/-- The world ON leaves (R196). -/
theorem State.powerUp_world (s : State) :
    s.powerUp.world =
      ((s.driveLine .oscEnable true).driveLine .enable true).world.delay s.params s.params.tSettle := by
  simp only [State.powerUp, State.powerTo_world, State.delay_world]
  have e : ((s.driveOrWarn .oscEnable true).driveOrWarn .enable true).world =
      ((s.driveLine .oscEnable true).driveLine .enable true).world := by
    rw [State.driveOrWarn_driveLine, State.driveLine_world, State.driveLine_world, State.driveOrWarn_eq,
      State.driveOrWarn_driveLine, State.driveLine_eq]
    rfl
  rw [e, State.driveOrWarn_eq, State.driveOrWarn_eq]

/-- ON's lines, time and turns (R196). -/
theorem State.powerUp_onward (s : State) :
    s.powerUp.world.lines = { s.world.lines with
      oscEnable := s.params.pins.oscEnable || s.world.lines.oscEnable
      enable := s.params.pins.enable || s.world.lines.enable } ∧
    s.world.time + s.params.tSettle ≤ s.powerUp.world.time ∧ s.world.time ≤ s.powerUp.world.time ∧
    (s.world.target.ap = none → s.powerUp.world.target.ap = none) ∧
    ∃ k ≤ 4, s.powerUp.world.script = s.world.script.drop k := by
  rw [State.powerUp_world]
  generalize hu : s.driveLine .oscEnable true = u
  have hp : u.params = s.params := by rw [← hu, State.driveLine_params]
  have a := s.driveLine_onward .oscEnable true
  have b := u.driveLine_onward .enable true
  rw [hu] at a
  have d := World.delay_follows s.params s.params.tSettle (u.driveLine .enable true).world
  refine ⟨?_, ?_, ?_, fun h => d.target.pointer.trans (b.2.1 (a.2.1 h)), ?_⟩
  · rw [d.lines, State.driveLine_lines, ← hu, State.driveLine_lines, State.driveLine_params]
    cases h : s.params.pins.enable <;> cases k : s.params.pins.oscEnable <;> simp [Pins.has, h, k, Lines.driven]
  · have := World.delay_time s.params s.params.tSettle (u.driveLine .enable true).world
    linarith [a.1, b.1]
  · exact a.1.trans (b.1.trans d.time)
  · obtain ⟨k, hk, e⟩ := a.2.2
    obtain ⟨l, hl, e'⟩ := b.2.2
    refine ⟨k + l + 2, by omega, ?_⟩
    rw [World.delay_script, e', e, List.drop_drop, List.drop_drop]
    congr 1

/-- ON lets the target drift only, unless ENABLE was low for less than T_RESET_MIN (R196, R372). -/
theorem State.powerUp_target (s : State) (h : s.params.pins.enable = true → s.world.lines.enable = true ∨
    s.world.lowSince + s.params.tResetMin ≤ s.world.time) :
    s.world.target.Drifts s.params.layout s.powerUp.world.target := by
  rw [State.powerUp_world]
  have g := s.driveLine_goes .oscEnable true (by simp)
  generalize hu : s.driveLine .oscEnable true = u at g
  have hp : u.params = s.params := by rw [← hu, State.driveLine_params]
  refine g.target.trans (.trans ?_ (World.delay_follows ..).target)
  rw [State.driveLine_world, hp]
  split
  · rename_i k
    have f := State.around_follows u
    rw [hp] at f
    refine f.target.trans ?_
    have e : u.around.tooEarly s.params = false := by
      rcases h k with h | h
      · simp [World.tooEarly, f.lines, g.enable, h]
      · simp only [World.tooEarly, Bool.and_eq_false_iff, decide_eq_false_iff_not, not_lt]
        right
        rw [f.low, g.low]
        exact h.trans (g.time.trans f.time)
    simp only [World.drive, World.enableHigh, e, if_true]
    exact .refl ..
  · exact .refl ..

end Sys2Proof.Machine
end

