-- ==== Sys2Proof/Laws/Rounding.lean ====
section
/-! SUPPORT. What rounding to binary64 can do: the scale it works at, and how far it moves a number. -/

namespace Sys2Proof.Machine

theorem pow2_eq (e : Int) : pow2 e = (2 : Rat) ^ e := by
  unfold pow2
  split
  · rename_i h
    obtain ⟨n, rfl⟩ := Int.eq_ofNat_of_zero_le h
    simp
  · rename_i h
    obtain ⟨n, hn⟩ := Int.eq_ofNat_of_zero_le (show 0 ≤ -e by omega)
    rw [show e = -(n : Int) by omega]
    simp

theorem larger_neg (q : Rat) : larger q (-q) = |q| := by
  unfold larger
  split
  · rw [abs_of_neg (by linarith)]
  · rw [abs_of_nonneg (by linarith)]

/-- Rounding to an integer gives the floor, or the integer above it where the number is none. -/
theorem roundInt_near (r : Rounding) (x : Rat) : |(roundInt r x : Rat) - x| ≤ 1 := by
  have f1 := Rat.floor_le x
  have f2 := Rat.lt_floor (x := x)
  have c1 := Rat.le_ceil (x := x)
  have c2 := Rat.ceil_lt (x := x)
  have near (tie : Bool) : |(nearest tie x : Rat) - x| ≤ 1 := by
    unfold nearest
    rw [abs_le]
    split
    · constructor <;> linarith
    · split
      · push_cast; constructor <;> linarith
      · cases tie <;> (simp only [if_true, Bool.false_eq_true, if_false]; push_cast; constructor <;> linarith)
  cases r
  · exact near _
  · exact near _
  · rw [abs_le]; simp only [roundInt]; constructor <;> linarith
  · rw [abs_le]; simp only [roundInt]; constructor <;> linarith
  · rw [abs_le]; simp only [roundInt]
    split <;> (constructor <;> linarith)

/-- A number below `2 ^ n` in absolute value rounds to an integer of at most `2 ^ n`. -/
theorem roundInt_le (r : Rounding) (x : Rat) (n : Int) (h : |x| ≤ n) : |roundInt r x| ≤ n := by
  have h' := abs_le.mp h
  have f1 : -n ≤ x.floor := Rat.le_floor_iff.mpr (by push_cast; exact h'.1)
  have f2 : x.floor ≤ n := by
    have := (Rat.floor_le x).trans h'.2
    exact_mod_cast this
  have c1 : x.ceil ≤ n := Rat.ceil_le_iff.mpr h'.2
  have c2 : -n ≤ x.ceil := by
    have : ((-n : Int) : Rat) ≤ x.ceil := le_trans (by push_cast; exact h'.1) Rat.le_ceil
    exact_mod_cast this
  have near (tie : Bool) : |nearest tie x| ≤ n := by
    unfold nearest
    have up (k : x.floor ≠ n ∨ (x.floor : Rat) < x) : x.floor + 1 ≤ n := by
      rcases k with k | k
      · omega
      · have : (x.floor : Rat) < n := lt_of_lt_of_le k h'.2
        have : x.floor < n := by exact_mod_cast this
        omega
    rw [abs_le]
    split
    · exact ⟨f1, f2⟩
    · rename_i k
      have := up (.inr (by linarith))
      split
      · exact ⟨by omega, this⟩
      · cases tie <;> simp <;> omega
  cases r
  · exact near _
  · exact near _
  · exact abs_le.mpr ⟨c2, c1⟩
  · exact abs_le.mpr ⟨f1, f2⟩
  · simp only [roundInt]
    split
    · exact abs_le.mpr ⟨f1, f2⟩
    · exact abs_le.mpr ⟨c2, c1⟩

/-- The guess is at most one too small. -/
theorem scaleGuess_spec {q : Rat} (h : q ≠ 0) :
    (2 : Rat) ^ 51 ≤ |q| * 2 ^ scaleGuess q ∧ |q| * 2 ^ scaleGuess q < 2 ^ 53 := by
  have hn : q.num.natAbs ≠ 0 := by simpa using h
  have n1 := Nat.log2_self_le hn
  have n2 := Nat.lt_log2_self (n := q.num.natAbs)
  have d1 := Nat.log2_self_le q.den_nz
  have d2 := Nat.lt_log2_self (n := q.den)
  have dp : (0 : Rat) < q.den := by exact_mod_cast q.den_pos
  have e : |q| = (q.num.natAbs : Rat) / q.den := by
    conv_lhs => rw [← Rat.num_div_den q]
    rw [abs_div, abs_of_pos dp, Nat.cast_natAbs, Int.cast_abs]
  have m1 : (2 : Rat) ^ q.num.natAbs.log2 ≤ q.num.natAbs := by exact_mod_cast n1
  have m2 : (q.num.natAbs : Rat) < 2 ^ (q.num.natAbs.log2 + 1) := by exact_mod_cast n2
  have e1 : (2 : Rat) ^ q.den.log2 ≤ q.den := by exact_mod_cast d1
  have e2 : (q.den : Rat) < 2 ^ (q.den.log2 + 1) := by exact_mod_cast d2
  have s : (2 : Rat) ^ scaleGuess q = 2 ^ 52 * 2 ^ q.den.log2 / 2 ^ q.num.natAbs.log2 := by
    unfold scaleGuess
    rw [zpow_sub₀ two_ne_zero, zpow_add₀ two_ne_zero, zpow_natCast, zpow_natCast]
    norm_cast
  generalize (q.num.natAbs : Rat) = a at *
  generalize q.num.natAbs.log2 = i at *
  generalize (q.den : Rat) = b at *
  generalize q.den.log2 = j at *
  have pi : (0 : Rat) < 2 ^ i := by positivity
  have pj : (0 : Rat) < 2 ^ j := by positivity
  rw [e, s, div_mul_div_comm]
  rw [pow_succ] at m2 e2
  constructor
  · rw [le_div_iff₀ (by positivity)]
    nlinarith [mul_le_mul m1 e2.le dp.le (by linarith : (0 : Rat) ≤ a)]
  · rw [div_lt_iff₀ (by positivity)]
    nlinarith [mul_lt_mul m2 e1 pj (by positivity : (0 : Rat) ≤ 2 ^ i * 2)]

/-- The scaled number is among the 53-bit significands. -/
theorem scaleOf_spec {q : Rat} (h : q ≠ 0) : (2 : Rat) ^ 52 ≤ |q| * 2 ^ scaleOf q ∧ |q| * 2 ^ scaleOf q < 2 ^ 53 := by
  have g := scaleGuess_spec h
  unfold scaleOf
  rw [larger_neg, pow2_eq, show (((2 ^ 52 : Nat) : Rat)) = 2 ^ 52 by norm_cast]
  split
  · rename_i k
    rw [zpow_add_one₀ two_ne_zero]
    constructor <;> linarith
  · rename_i k
    exact ⟨not_lt.mp k, g.2⟩

end Sys2Proof.Machine
end

