-- ==== Sys2Proof/Laws/Verify.lean ====
section
/-! SUPPORT. What the verified writes can do: over clean transfers, over any transfers, and under a bound on attempts;
and what giving up leaves. -/

namespace Sys2Proof.Machine

/-- The world `w` keeps what `s` had, up to the registers `rs`, INT_STATUS and START_MEAS. -/
structure KeepsOthers (s : State) (w : World) (rs : List Reg8) : Prop where
  lines : w.lines = s.world.lines
  time : s.world.time ≤ w.time
  keeps : ∀ r, r ≠ .config1 → r ≠ .intStatus → r ∉ rs → w.target.r8.get r = s.world.target.r8.get r
  config1 : .config1 ∉ rs →
    withoutStartMeas s.params.layout w.target.r8.config1 =
      withoutStartMeas s.params.layout s.world.target.r8.config1

theorem KeepsOthers.trans {s t : State} {w : World} {a b : List Reg8} (h : KeepsOthers s t.world a)
    (k : KeepsOthers t w b) (e : t.params = s.params) : KeepsOthers s w (a ++ b) :=
  ⟨k.lines.trans h.lines, h.time.trans k.time, fun r h1 h2 h3 => by
    simp at h3; exact (k.keeps r h1 h2 h3.2).trans (h.keeps r h1 h2 h3.1),
   fun h3 => by simp at h3; have := k.config1 h3.2; rw [e] at this; exact this.trans (h.config1 h3.1)⟩

theorem State.pointerless_keeps (s : State) : KeepsOthers s s.around.pointerless [] := by
  have f := State.around_follows s
  exact ⟨f.lines, f.time, fun r h1 h2 _ => f.target.keeps r h1 h2, fun _ => f.target.config1⟩

theorem State.store8_keeps (s : State) (r : Reg8) (v : Byte) : KeepsOthers s (s.stored8 r v) [r] := by
  have f := State.around_follows s
  refine ⟨f.lines, f.time, fun x h1 h2 h3 => ?_, fun h => ?_⟩
  · rw [← f.target.keeps x h1 h2]; exact Target.store_other _ _ _ _ _ _ (by simpa using h3) h2
  · rw [← f.target.config1]
    exact congrArg (withoutStartMeas _)
      (Target.store_other s.params.layout s.turn r .config1 v s.around.target (by simpa using h) (by simp))

theorem State.store16_keeps (s : State) (p : Pair) (v : Half) : KeepsOthers s (s.stored16 p v)
    [pairHi p, pairLo p] := by
  have f := State.around_follows s
  refine ⟨f.lines, f.time, fun x h1 h2 h3 => ?_, fun h => ?_⟩
  · rw [← f.target.keeps x h1 h2]; simp at h3
    exact (Target.store_other _ _ _ _ _ _ h3.2 h2).trans (Target.store_other _ _ _ _ _ _ h3.1 h2)
  · rw [← f.target.config1]
    simp at h
    exact congrArg (withoutStartMeas _)
      ((Target.store_other s.params.layout s.turn _ .config1 _ _ h.2 (by simp)).trans
      (Target.store_other s.params.layout s.turn _ .config1 _ _ h.1 (by simp)))

/-! ## Over clean transfers -/

/-- One attempt of WRV8 over two clean transfers matches (R198). -/
theorem State.attempt8_clean (r : Reg8) (v : Byte) (s : State) (n : Nat) (hc : s.CleanNext (n + 2))
    (hr : r ≠ .intStatus) (hv : r = .config1 → withoutStartMeas s.params.layout v = v) :
    ∃ w x, s.attempt8 r v = (true, { s with world := w, log := s.log ++ verified8 r v x }) ∧
      (if r = .config1 then withoutStartMeas s.params.layout x else x) = v ∧ w.script = s.world.script.drop 2 ∧
        KeepsOthers s w [r] ∧
        (if r = .config1 then withoutStartMeas s.params.layout (w.target.r8.get r) else w.target.r8.get r) = v := by
  obtain ⟨b, hb, he⟩ := s.busWr8_any r v
  have hb' := hb (State.CleanNext.turn_clean hc)
  subst hb'
  let s1 := s.exchanged (s.stored8 r b) (.sent [commandByte false true (regAddr8 r), b])
  have k1 : s1.world.script = s.world.script.drop 1 := State.around_script s
  have c1 : s1.CleanNext (n + 1) := State.CleanNext.after hc k1 (le_refl 1)
  obtain ⟨z, x, hx, hy⟩ := s1.busRd8_any r
  obtain ⟨hz, hx'⟩ := hx (State.CleanNext.turn_clean c1)
  have g : s1.world.target.r8.get r = b := Target.store_get _ _ _ _ _ hr
  have d := State.pointerless_keeps s1
  have val : (if r = .config1 then withoutStartMeas s.params.layout x else x) = b := by
    split
    · rename_i h
      subst h
      have := d.config1 (by simp)
      rw [show s1.world.target.r8.config1 = b from g] at this
      exact (hx'.config1.trans this).trans (hv rfl)
    · rename_i h; exact (hx'.other hr h).trans ((d.keeps r h hr (by simp)).trans g)
  refine ⟨s1.around.pointerless, x, ?_, val, ?_, ?_, ?_⟩
  · simp only [State.attempt8]
    rw [he]
    rw [show (s.exchanged (s.stored8 r b) (.sent [commandByte false true (regAddr8 r), b])).busRd8 r = _ from hy]
    simp only [hz]
    refine Prod.ext ?_ ?_
    · simpa [s1] using val
    · simp [State.exchanged, s1, verified8]
  · have : s1.around.pointerless.script = s1.world.script.drop 1 := State.around_script s1
    rw [this, k1, List.drop_drop]
  · have := (State.store8_keeps s r b).trans (t := s1) d rfl
    simpa using this
  · split
    · rename_i h
      subst h
      have := d.config1 (by simp)
      rw [show s1.world.target.r8.config1 = b from g] at this
      exact this.trans (hv rfl)
    · rename_i h; exact (d.keeps r h hr (by simp)).trans g

/-- One attempt of WRV16 over two clean transfers matches (R199). -/
theorem State.attempt16_clean (p : Pair) (v : Half) (s : State) (n : Nat) (hc : s.CleanNext (n + 2)) :
    ∃ w, s.attempt16 p v = (true, { s with world := w, log := s.log ++ verified16 p v }) ∧
      w.script = s.world.script.drop 2 ∧ KeepsOthers s w [pairHi p, pairLo p] ∧
        w.target.r8.get (pairHi p) = hiByte v ∧ w.target.r8.get (pairLo p) = loByte v := by
  obtain ⟨b, hb, he⟩ := s.busWr16_any p v
  have hb' := hb (State.CleanNext.turn_clean hc)
  subst hb'
  let s1 := s.exchanged (s.stored16 p b) (.sent [commandByte true true (regAddrPair p), hiByte b, loByte b])
  have k1 : s1.world.script = s.world.script.drop 1 := State.around_script s
  have c1 : s1.CleanNext (n + 1) := State.CleanNext.after hc k1 (le_refl 1)
  obtain ⟨z, x, hx, hy⟩ := s1.busRd16_any p
  obtain ⟨hz, hx'⟩ := hx (State.CleanNext.turn_clean c1)
  have g := (World.store16_registers s.params.layout s.turn p b s.around).1
  have gh : s1.world.target.r8.get (pairHi p) = hiByte b := by
    show (World.store16 s.params.layout s.turn p b s.around).target.r8.get (pairHi p) = hiByte b
    rw [g]; cases p <;> rfl
  have gl : s1.world.target.r8.get (pairLo p) = loByte b := by
    show (World.store16 s.params.layout s.turn p b s.around).target.r8.get (pairLo p) = loByte b
    rw [g]; cases p <;> rfl
  have d := State.pointerless_keeps s1
  have nh : pairHi p ≠ .config1 ∧ pairHi p ≠ .intStatus := by cases p <;> simp [pairHi]
  have nl : pairLo p ≠ .config1 ∧ pairLo p ≠ .intStatus := by cases p <;> simp [pairLo]
  have vh := (d.keeps _ nh.1 nh.2 (by simp)).trans gh
  have vl := (d.keeps _ nl.1 nl.2 (by simp)).trans gl
  have val : x = b := by
    rw [hx']
    have vh' : s1.around.target.r8.get (pairHi p) = hiByte b := vh
    have vl' : s1.around.target.r8.get (pairLo p) = loByte b := vl
    rw [vh', vl', joinHalf_bytes]
  subst val
  refine ⟨s1.around.pointerless, ?_, ?_, ?_, vh, vl⟩
  · simp only [State.attempt16]
    rw [he]
    rw [show (s.exchanged (s.stored16 p x)
      (.sent [commandByte true true (regAddrPair p), hiByte x, loByte x])).busRd16 p = _ from hy]
    simp only [hz]
    refine Prod.ext (by simp) ?_
    simp [State.exchanged, s1, verified16]
  · have : s1.around.pointerless.script = s1.world.script.drop 1 := State.around_script s1
    rw [this, k1, List.drop_drop]
  · have := (State.store16_keeps s p x).trans (t := s1) d rfl
    simpa using this

/-- A write whose first attempt matches is done. -/
theorem State.writeAll_first {op : WriteOp} {w : VerifiedWrite} {rest : List VerifiedWrite} {s t : State}
    (h : s.attemptWrite w = (true, t)) :
    State.writeAll op (w :: rest) s = State.writeAll op rest (t.learnVerified w) := by
  obtain ⟨n, hn⟩ : ∃ n, s.attemptsNow = n + 1 := by unfold State.attemptsNow; split <;> exact ⟨_, rfl⟩
  simp only [State.writeAll, hn, State.tries, h]

/-- The five configuration writes over clean transfers: ten frames, seven live slots, the target holds them (R202). -/
theorem State.writeConfiguration_clean (op : WriteOp) (s : State) (c1 c2 mask : Byte) (stopMask overflow : Half)
    (hc : s.CleanNext 10) (hv : withoutStartMeas s.params.layout c1 = c1) :
    ∃ w x, State.writeAll op (configurationWrites c1 c2 mask stopMask overflow) s = .going { s with
        world := w
        mirror8 := configured8 s.mirror8 c1 c2 mask stopMask overflow
        mirror16 := { s.mirror16 with clockOvf := ⟨some overflow, false⟩, stopMask := ⟨some stopMask, false⟩ }
        log := s.log ++ verified8 .config1 c1 x ++ verified8 .config2 c2 c2 ++ verified8 .intMask mask mask ++
          verified16 .stopMask stopMask ++ verified16 .clockOvf overflow } ∧
      withoutStartMeas s.params.layout x = c1 ∧
      w.target.Holds s.params.layout c1 c2 mask stopMask overflow ∧
      KeepsOthers s w [.config1, .config2, .intMask, .stopMaskH, .stopMaskL, .clockOvfH, .clockOvfL] := by
  obtain ⟨w1, x, e1, v1, s1, k1, g1⟩ := State.attempt8_clean .config1 c1 s 8 hc (by simp) (fun _ => hv)
  simp only [if_true] at v1 g1
  generalize hS1 : State.learn8 { s with world := w1, log := s.log ++ verified8 .config1 c1 x } .config1 c1 = S1
  have q1 : S1.world = w1 := by rw [← hS1]; rfl
  have p1 : S1.params = s.params := by rw [← hS1]; rfl
  have C1 : S1.CleanNext 8 := State.CleanNext.after hc (by rw [q1]; exact s1) (le_refl 2)
  obtain ⟨w2, x2, e2, v2, s2, k2, g2⟩ := State.attempt8_clean .config2 c2 S1 6 C1 (by simp) (by simp)
  simp at v2 g2; subst v2
  generalize hS2 : State.learn8 { S1 with
    world := w2, log := S1.log ++ verified8 .config2 x2 x2 } .config2 x2 = S2
  have q2 : S2.world = w2 := by rw [← hS2]; rfl
  have p2 : S2.params = s.params := by rw [← hS2, ← p1]; rfl
  have C2 : S2.CleanNext 6 := State.CleanNext.after C1 (by rw [q2]; exact s2) (le_refl 2)
  obtain ⟨w3, x3, e3, v3, s3, k3, g3⟩ := State.attempt8_clean .intMask mask S2 4 C2 (by simp) (by simp)
  simp at v3 g3; subst v3
  generalize hS3 : State.learn8 { S2 with
    world := w3, log := S2.log ++ verified8 .intMask x3 x3 } .intMask x3 = S3
  have q3 : S3.world = w3 := by rw [← hS3]; rfl
  have p3 : S3.params = s.params := by rw [← hS3, ← p2]; rfl
  have C3 : S3.CleanNext 4 := State.CleanNext.after C2 (by rw [q3]; exact s3) (le_refl 2)
  obtain ⟨w4, e4, s4, k4, g4, g4'⟩ := State.attempt16_clean .stopMask stopMask S3 2 C3
  generalize hS4 : State.learn16 { S3 with
    world := w4, log := S3.log ++ verified16 .stopMask stopMask } .stopMask stopMask = S4
  have q4 : S4.world = w4 := by rw [← hS4]; rfl
  have p4 : S4.params = s.params := by rw [← hS4, ← p3]; rfl
  have C4 : S4.CleanNext 2 := State.CleanNext.after C3 (by rw [q4]; exact s4) (le_refl 2)
  obtain ⟨w5, e5, s5, k5, g5, g5'⟩ := State.attempt16_clean .clockOvf overflow S4 0 C4
  have t1 : KeepsOthers s S1.world [.config1] := by rw [q1]; exact k1
  have t2 : KeepsOthers s S2.world [.config1, .config2] := by rw [q2]; exact t1.trans k2 p1
  have t3 : KeepsOthers s S3.world [.config1, .config2, .intMask] := by rw [q3]; exact t2.trans k3 p2
  have t4 : KeepsOthers s S4.world [.config1, .config2, .intMask, .stopMaskH, .stopMaskL] := by
    rw [q4]; exact t3.trans k4 p3
  refine ⟨w5, x, ?_, v1, ?_, ?_⟩
  · unfold configurationWrites
    rw [State.writeAll_first (w := .byte .config1 c1) e1]
    simp only [State.learnVerified, hS1]
    rw [State.writeAll_first (w := .byte .config2 x2) e2]
    simp only [State.learnVerified, hS2]
    rw [State.writeAll_first (w := .byte .intMask x3) e3]
    simp only [State.learnVerified, hS3]
    rw [State.writeAll_first (w := .pair .stopMask stopMask) e4]
    simp only [State.learnVerified, hS4]
    rw [State.writeAll_first (w := .pair .clockOvf overflow) e5]
    simp only [State.learnVerified, State.writeAll]
    rw [← hS4, ← hS3, ← hS2, ← hS1]
    simp [State.learn8, State.learn16, pairOf, configured8, File8.set, FilePair.set, pairHi, pairLo, Slot.fresh]
  · constructor
    · have a := k5.config1 (by decide)
      have b := k4.config1 (by decide)
      have c := k3.config1 (by decide)
      have d := k2.config1 (by decide)
      rw [p4, q4] at a
      rw [p3, q3] at b
      rw [p2, q2] at c
      rw [p1, q1] at d
      exact a.trans (b.trans (c.trans (d.trans g1)))
    · have := k5.keeps .config2 (by decide) (by decide) (by decide)
      rw [q4, k4.keeps .config2 (by decide) (by decide) (by decide), q3,
        k3.keeps .config2 (by decide) (by decide) (by decide), q2, g2] at this; exact this
    · have := k5.keeps .intMask (by decide) (by decide) (by decide)
      rw [q4, k4.keeps .intMask (by decide) (by decide) (by decide), q3, g3] at this; exact this
    · have a := k5.keeps .stopMaskH (by decide) (by decide) (by decide)
      have b := k5.keeps .stopMaskL (by decide) (by decide) (by decide)
      rw [q4] at a b
      simp only [pairHi, pairLo] at g4 g4'
      rw [g4] at a; rw [g4'] at b
      simp only [File8.get] at a b
      rw [Target.stopMask, a, b, joinHalf_bytes]
    · simp only [pairHi, pairLo, File8.get] at g5 g5'
      rw [Target.clockOvf, g5, g5', joinHalf_bytes]
  · simpa [pairHi, pairLo] using t4.trans k5 p4

/-! ## Over any transfers -/

/-- From `s` to `t` only transfers and mirror updates happened: no line moved, the clock did not run back, the mirror
stayed coherent and lost no value. -/
structure BusOnly (s t : State) : Prop where
  frame : t = { s with
    world := t.world, mirror8 := t.mirror8, mirror16 := t.mirror16, mirror24 := t.mirror24
    result := t.result, log := t.log }
  time : s.world.time ≤ t.world.time
  lines : t.world.lines = s.world.lines
  ap : s.world.target.ap = none → t.world.target.ap = none
  coherent : s.mirrorCoherent = true → t.mirrorCoherent = true
  present : ∀ r, (s.mirror8.get r).value.isSome = true → (t.mirror8.get r).value.isSome = true

theorem BusOnly.refl (s : State) : BusOnly s s := ⟨rfl, le_refl _, rfl, id, id, fun _ => id⟩

theorem BusOnly.trans {a b c : State} (h : BusOnly a b) (k : BusOnly b c) : BusOnly a c := by
  refine ⟨?_, h.time.trans k.time, k.lines.trans h.lines, k.ap ∘ h.ap, k.coherent ∘ h.coherent,
    fun r hr => k.present r (h.present r hr)⟩
  have hk := k.frame; have hh := h.frame
  rw [hh] at hk
  exact hk

theorem BusOnly.ex {s t : State} (h : BusOnly s t) : ∃ w m8 m16 m24 r l, t = { s with
    world := w, mirror8 := m8, mirror16 := m16, mirror24 := m24, result := r, log := l } :=
  ⟨_, _, _, _, _, _, h.frame⟩

theorem BusOnly.params {s t : State} (h : BusOnly s t) : t.params = s.params := by rw [h.frame]

/-- Each transfer is such a change. -/
theorem BusOnly.exchanged (s : State) (w : World) (o) (hl : w.lines = s.world.lines)
    (ht : s.world.time ≤ w.time) (ha : s.world.target.ap = none → w.target.ap = none) :
    BusOnly s (s.exchanged w o) := ⟨rfl, ht, hl, ha, id, fun _ => id⟩

theorem BusOnly.pointerless (s : State) (o) : BusOnly s (s.exchanged s.around.pointerless o) :=
  .exchanged _ _ _ (State.around_follows s).lines (State.around_follows s).time fun _ => rfl

theorem BusOnly.bulk (s : State) {w : World} (h : World.BulkRead s.params s.turn s.around w) (o) :
    BusOnly s (s.exchanged w o) :=
  .exchanged _ _ _ (h.follows.lines.trans (State.around_follows s).lines)
    ((State.around_follows s).time.trans h.follows.time) fun _ => h.pointer

theorem BusOnly.rd8 (s : State) (r) : BusOnly s (s.busRd8 r).2 := by
  obtain ⟨b, v, _, e⟩ := s.busRd8_any r; rw [e]; exact .pointerless ..

theorem BusOnly.rd16 (s : State) (r) : BusOnly s (s.busRd16 r).2 := by
  obtain ⟨b, v, _, e⟩ := s.busRd16_any r; rw [e]; exact .pointerless ..

theorem BusOnly.rd24 (s : State) (r) : BusOnly s (s.busRd24 r).2 := by
  obtain ⟨b, v, _, e⟩ := s.busRd24_any r; rw [e]; exact .pointerless ..

theorem BusOnly.rdAll8 (s : State) : BusOnly s (s.busRdAll8).2 := by
  obtain ⟨_, _, _, h, _, e⟩ := s.busRdAll8_any; rw [e]; exact .bulk s h _

theorem BusOnly.rdAll24 (s : State) : BusOnly s (s.busRdAll24).2 := by
  obtain ⟨_, _, _, h, _, e⟩ := s.busRdAll24_any; rw [e]; exact .bulk s h _

theorem BusOnly.wr8 (s : State) (r v) : BusOnly s (s.busWr8 r v) := by
  obtain ⟨b, _, e⟩ := s.busWr8_any r v; rw [e]
  exact .exchanged _ _ _ (State.around_follows s).lines (State.around_follows s).time fun _ => rfl

theorem BusOnly.wr16 (s : State) (r v) : BusOnly s (s.busWr16 r v) := by
  obtain ⟨b, _, e⟩ := s.busWr16_any r v; rw [e]
  exact .exchanged _ _ _ (State.around_follows s).lines (State.around_follows s).time fun _ => rfl

/-- CONFIGURE_RETAIN's slots are present (R212). -/
theorem State.retained_isSome (s : State) : s.retained.isSome = true ↔
    (s.mirror8.config1.value.isSome ∧ s.mirror8.config2.value.isSome ∧ s.mirror8.intMask.value.isSome ∧
    s.mirror8.stopMaskH.value.isSome ∧ s.mirror8.stopMaskL.value.isSome ∧ s.mirror8.clockOvfH.value.isSome ∧
    s.mirror8.clockOvfL.value.isSome) := by
  unfold State.retained
  cases s.mirror8.config1.value <;> cases s.mirror8.config2.value <;> cases s.mirror8.intMask.value <;>
    cases s.mirror8.stopMaskH.value <;> cases s.mirror8.stopMaskL.value <;> cases s.mirror8.clockOvfH.value <;>
    cases s.mirror8.clockOvfL.value <;> simp

/-- Each update of the mirror is such a change. -/
theorem BusOnly.learn8 (s : State) (r v) : BusOnly s (s.learn8 r v) := by
  refine ⟨by cases r <;> rfl, by cases r <;> exact le_refl _, by cases r <;> rfl, by cases r <;> exact id, ?_, ?_⟩
  · rw [State.mirrorCoherent_iff, State.mirrorCoherent_iff]
    intro h
    cases r <;> simp [State.learn8, pairOf, State.refreshPair, State.pairSlot, File8.set, FilePair.set, h,
      File8.get, pairHi, pairLo]
  · intro x; cases r <;> cases x <;> simp +contextual
      [State.learn8, pairOf, State.refreshPair, File8.set, Slot.fresh, File8.get]

theorem BusOnly.learn16 (s : State) (p v) : BusOnly s (s.learn16 p v) := by
  refine ⟨rfl, le_refl _, rfl, id, ?_, ?_⟩
  · rw [State.mirrorCoherent_iff, State.mirrorCoherent_iff]
    intro h
    cases p <;> simp [State.learn16, State.pairSlot, File8.set, FilePair.set, h, File8.get, pairHi, pairLo,
      joinSlots, Slot.fresh]
  · intro x; cases p <;> cases x <;> simp +contextual
      [State.learn16, File8.set, Slot.fresh, pairHi, pairLo, File8.get]

theorem BusOnly.learn24 (s : State) (r v) : BusOnly s (s.learn24 r v) := ⟨rfl, le_refl _, rfl, id, id, fun _ => id⟩

theorem BusOnly.learnAll24 (s : State) (b) : BusOnly s (s.learnAll24 b) := ⟨rfl, le_refl _, rfl, id, id, fun _ => id⟩

theorem BusOnly.learnAll8 (s : State) (b) : BusOnly s (s.learnAll8 b) := by
  refine ⟨rfl, le_refl _, rfl, id, ?_, ?_⟩
  · rw [State.mirrorCoherent_iff, State.mirrorCoherent_iff]; intro; rfl
  · intro r _; cases r <;> rfl

theorem BusOnly.yields (s : State) (y) : BusOnly s (s.yields y) := ⟨rfl, le_refl _, rfl, id, id, fun _ => id⟩

theorem BusOnly.begin (s : State) : BusOnly s s.begin := ⟨rfl, le_refl _, rfl, id, id, fun _ => id⟩

theorem BusOnly.note (s : State) (o) : BusOnly s (s.note o) := ⟨rfl, le_refl _, rfl, id, id, fun _ => id⟩

theorem BusOnly.warnAll (s : State) (o) : BusOnly s (s.warnAll o) := ⟨rfl, le_refl _, rfl, id, id, fun _ => id⟩

theorem BusOnly.nextTurn (s : State) : BusOnly s s.nextTurn.2 :=
  ⟨rfl, (State.around_follows s).time, (State.around_follows s).lines,
    fun h => (State.around_follows s).target.pointer.trans h, id, fun _ => id⟩

theorem BusOnly.retained {s t : State} (h : BusOnly s t) (k : s.retained.isSome = true) : t.retained.isSome = true := by
  rw [State.retained_isSome] at k ⊢
  exact ⟨h.present .config1 k.1, h.present .config2 k.2.1, h.present .intMask k.2.2.1,
    h.present .stopMaskH k.2.2.2.1, h.present .stopMaskL k.2.2.2.2.1, h.present .clockOvfH k.2.2.2.2.2.1,
    h.present .clockOvfL k.2.2.2.2.2.2⟩

/-- Each attempt of a verified write is such a change. -/
theorem BusOnly.attemptWrite (s : State) (w) : BusOnly s (s.attemptWrite w).2 := by
  cases w with
  | byte r v => exact (BusOnly.wr8 s r v).trans (BusOnly.rd8 _ r)
  | pair p v => exact (BusOnly.wr16 s p v).trans (BusOnly.rd16 _ p)

/-- A write-verify loop makes transfers only (R198, R199). -/
theorem BusOnly.tries (w : VerifiedWrite) (n : Nat) (s : State) : BusOnly s (State.tries w n s).2 := by
  induction n generalizing s with
  | zero => exact .refl s
  | succ n ih =>
    have b := BusOnly.attemptWrite s w
    unfold State.tries
    split
    · rename_i h; rw [h] at b; exact b
    · rename_i h; rw [h] at b; exact b.trans (ih _)

theorem BusOnly.learnVerified (s : State) (w) : BusOnly s (s.learnVerified w) := by
  cases w with
  | byte r v => exact .learn8 ..
  | pair p v => exact .learn16 ..

/-- A verified write that matched leaves the slots it covers present. -/
theorem State.learnVerified_present (s : State) (w : VerifiedWrite) (r : Reg8) (h : w.covers r = true) :
    ((s.learnVerified w).mirror8.get r).value.isSome = true := by
  cases w with
  | byte x v =>
    simp [VerifiedWrite.covers] at h
    subst h
    cases r <;> rfl
  | pair p v =>
    simp [VerifiedWrite.covers] at h
    rcases h with rfl | rfl <;> cases p <;> rfl

/-- Every slot the writes cover is present. -/
def Covered (ws : List VerifiedWrite) (t : State) : Prop :=
  ∀ r, ws.any (fun w => w.covers r) = true → (t.mirror8.get r).value.isSome = true

/-- A verified write gave up after transfers only (R200). -/
def WriteFailed (s t : State) : Prop :=
  ∃ u a v, BusOnly s u ∧ s.params.retryLimit ≠ none ∧ t = u.writeFailed a v

/-- The operation goes on in the next step, after transfers only: a slot its writes cover is present or still to be
written (R200). -/
def WriteGoesOn (op : WriteOp) (ws : List VerifiedWrite) (s t : State) : Prop :=
  ∃ u rest, BusOnly s u ∧ s.params.retryLimit = none ∧ rest ≠ [] ∧ t = { u with pending := some ⟨op, rest⟩ } ∧
    ∀ r, ws.any (fun w => w.covers r) = true →
      (u.mirror8.get r).value.isSome = true ∨ rest.any (fun w => w.covers r) = true

/-- What the verified writes of an operation can do: match, give up, or go on in the next step (R198 to R200). -/
theorem State.writeAll_gives (op : WriteOp) (ws : List VerifiedWrite) (s : State) :
    (State.writeAll op ws s).Gives (fun t => BusOnly s t ∧ Covered ws t)
      (fun t => WriteFailed s t ∨ WriteGoesOn op ws s t) := by
  induction ws generalizing s with
  | nil => exact ⟨.refl s, fun r h => by simp at h⟩
  | cons w rest ih =>
    have b := BusOnly.tries w s.attemptsNow s
    unfold State.writeAll
    split
    · rename_i u h
      rw [h] at b
      have b' := b.trans (BusOnly.learnVerified u w)
      have cov : ∀ r, w.covers r = true → ((u.learnVerified w).mirror8.get r).value.isSome = true :=
        fun r => State.learnVerified_present u w r
      refine (ih (u.learnVerified w)).mono ?_ ?_
      · intro t ht
        refine ⟨b'.trans ht.1, fun r hr => ?_⟩
        simp only [List.any_cons, Bool.or_eq_true] at hr
        rcases hr with hr | hr
        · exact ht.1.present r (cov r hr)
        · exact ht.2 r hr
      · rintro t (⟨x, a, v, hx, hn, e⟩ | ⟨x, more, hx, hn, hm, e, hc⟩)
        · exact .inl ⟨x, a, v, b'.trans hx, by rw [← b'.params]; exact hn, e⟩
        · refine .inr ⟨x, more, b'.trans hx, by rw [← b'.params]; exact hn, hm, e, fun r hr => ?_⟩
          simp only [List.any_cons, Bool.or_eq_true] at hr
          rcases hr with hr | hr
          · exact .inl (hx.present r (cov r hr))
          · exact hc r hr
    · rename_i u h
      rw [h] at b
      dsimp only at b
      split
      · rename_i k
        refine .inl ⟨u, _, _, b, ?_, rfl⟩
        rw [← b.params]
        intro hn
        simp [hn] at k
      · rename_i k
        refine .inr ⟨u, w :: rest, b, ?_, by simp, rfl, fun r hr => .inr hr⟩
        rw [← b.params]
        simpa using k

/-- A run that is not refused. -/
def Run.Ends (r : Run) : Prop := ∀ f, r ≠ .refused f

/-- The verified writes are never refused. -/
theorem State.writeAll_ends (op : WriteOp) (ws : List VerifiedWrite) (s : State) : (State.writeAll op ws s).Ends := by
  induction ws generalizing s with
  | nil => simp [State.writeAll, Run.Ends]
  | cons w rest ih =>
    unfold State.writeAll
    split
    · exact ih _
    · split <;> simp [Run.Ends]

/-- Such a run goes on or ended. -/
theorem Run.Ends.cases {r : Run} (h : Run.Ends r) : (∃ t, r = .going t) ∨ ∃ t, r = .ended t := by
  cases r with
  | going s => exact .inl ⟨s, rfl⟩
  | ended s => exact .inr ⟨s, rfl⟩
  | refused x => exact (h x rfl).elim

/-- What an operation that ends in verified writes leaves: its last part on top of transfers, or what the writes ended in
(R198 to R202). -/
theorem State.finishWrites_gives (op : WriteOp) (ws : List VerifiedWrite) (s : State) :
    (s.finishWrites op ws).Gives (fun t => ∃ u, BusOnly s u ∧ Covered ws u ∧ t = u.afterWrites op)
      (fun t => WriteFailed s t ∨ WriteGoesOn op ws s t) :=
  (State.writeAll_gives op ws s).andThen fun u hu => ⟨u, hu.1, hu.2, rfl⟩

theorem State.finishWrites_ends (op : WriteOp) (ws : List VerifiedWrite) (s : State) : (s.finishWrites op ws).Ends := by
  unfold State.finishWrites
  rcases (State.writeAll_ends op ws s).cases with ⟨t, e⟩ | ⟨t, e⟩ <;> rw [e] <;> simp [Run.andThen, Run.Ends]

/-- What an operation does after its writes: Configured, and nothing else but what its own rule names
(R202, R212, R232, R257). -/
theorem State.afterWrites_eq (s : State) (op : WriteOp) : s.afterWrites op = { s with
    pstate := .configured
    calPeriods := if op = .configure then s.cfg.map Cfg.calPeriods else s.calPeriods
    mstate := if op = .measure then .idle else s.mstate
    outcome := if op = .measure then some .triggerPolarity else s.outcome
    result := if op = .measure then .outcome .triggerPolarity else s.result
    log := s.log ++ .power .configured ::
      if op = .measure then [.moved .protocolError, .reported .triggerPolarity, .moved .idle] else [] } := by
  cases op <;> simp [State.afterWrites, State.powerTo, State.note, State.raiseMeasurement, State.finish, State.moveTo,
    State.yields]

/-- The slots CONFIGURE_RETAIN needs are those of the five configuration writes (R212). -/
theorem configurationWrites_cover (c1 c2 m : Byte) (sm ov : Half) (r : Reg8) (h : r ∈ retainedSlots) :
    (configurationWrites c1 c2 m sm ov).any (fun w => w.covers r) = true := by
  simp [retainedSlots] at h
  rcases h with rfl | rfl | rfl | rfl | rfl | rfl | rfl <;> simp [configurationWrites, VerifiedWrite.covers, pairHi,
    pairLo]

/-- CONFIGURE_RETAIN's slots as a list (R212). -/
theorem State.retained_iff (s : State) : s.retained.isSome = true ↔
    ∀ r ∈ retainedSlots, (s.mirror8.get r).value.isSome = true := by
  rw [State.retained_isSome]
  simp only [retainedSlots, List.forall_mem_cons, File8.get]
  constructor
  · rintro ⟨a, b, c, d, e, f, g⟩
    exact ⟨a, b, c, f, g, d, e, by simp⟩
  · rintro ⟨a, b, c, f, g, d, e, -⟩
    exact ⟨a, b, c, d, e, f, g⟩

/-- What CONFIGURE_RETAIN writes: START_MEAS is 0 in its CONFIG1 (R212). -/
theorem State.retained_writes {s : State} {ws : List VerifiedWrite} (h : s.retained = some ws) :
    ∃ c1 c2 m sm ov, ws = configurationWrites c1 c2 m sm ov ∧ withoutStartMeas s.params.layout c1 = c1 := by
  unfold State.retained at h
  split at h
  · simp only [Option.some.injEq] at h
    refine ⟨_, _, _, _, _, h.symm, ?_⟩
    simp only [sentByte, withoutStartMeas]
    ext i hi
    simp
    grind
  · cases h

/-- From `s` to `t` a verified write gave up and the fatal error was taken (R316, R328). -/
structure FatalStop (s t : State) : Prop where
  frame : t = { s with
    world := t.world, mirror8 := t.mirror8, mirror16 := t.mirror16, mirror24 := t.mirror24
    pstate := .off, mstate := .idle, fatal := some .configurationWriteFailure
    result := .failed .configurationWriteFailure, log := t.log }
  time : s.world.time ≤ t.world.time
  ap : s.world.target.ap = none → t.world.target.ap = none
  coherent : s.mirrorCoherent = true → t.mirrorCoherent = true
  held : t.heldInReset = true
  reset : s.params.pins.enable = true → t.world.target = Target.inReset s.params

/-- Giving up takes the fatal error. -/
theorem WriteFailed.fatal {s t : State} (h : WriteFailed s t) (hb : s.busOpen = true) : FatalStop s t := by
  obtain ⟨u, a, v, b, -, rfl⟩ := h
  obtain ⟨w, m8, m16, m24, r, l, rfl⟩ := b.ex
  let u : State := { s with world := w, mirror8 := m8, mirror16 := m16, mirror24 := m24, result := r, log := l }
  let y : State := { u with
    fatal := some .configurationWriteFailure
    log := u.log ++ [.unverified a v] ++ [.failed .configurationWriteFailure] }
  have e : u.writeFailed a v = { y.powerDown with mstate := .idle, result := .failed .configurationWriteFailure } := by
    simp [State.writeFailed, State.raiseFatal, State.note, hb, y, u]
  show FatalStop s (u.writeFailed a v)
  rw [e]
  refine ⟨?_, ?_, ?_, ?_, ?_, ?_⟩
  · rw [State.powerDown_eq]
  · exact b.time.trans (State.powerDown_forward y)
  · intro h; exact State.powerDown_pointer y (b.ap h)
  · intro h; exact State.powerDown_coherent y (b.coherent h)
  · exact State.powerDown_held y
  · intro h; exact (State.powerDown_resets y h).1

end Sys2Proof.Machine
end

