-- ==== Sys2Proof/Tests/Slice0.lean ====
section
/-! SUPPORT. The model's own tests: the checks of WellFormed, decoding from words written out bit by bit, the spec's
test vectors (spec/95_test_vectors.md), each about one step; and for every obligation with hypotheses a concrete state
and operands that meet them (`witness_…`). Expected results are the spec's, never the model's own answers. -/

open Sys2Proof Sys2Proof.Machine

namespace Sys2Proof.Tests

-- One kernel evaluation at a time: evaluated side by side they ask for more threads than the checks allow.
set_option Elab.async false

/-! ## Helpers -/

/-- Parameters for the tests: R7's defaults, the illustrative values of 95_test_vectors where R7 says OPEN. -/
def bench : Params where
  clockPeriod := 1 / 12000000
  busMin := 50000
  busRated := 25000000
  busCeiling := 33000000
  tResetMin := 1 / 1000
  tSettle := 1 / 100
  tTrigDeadline := 1 / 10
  tIntMargin := 50 / 1000000
  tPollSlack := 20 / 1000000
  retryLimit := none
  layout := defaultLayout
  reset8 := defaultReset8
  reset24 := defaultReset24
  intActive := false
  intMaskValue := 0x07#8
  pins := ⟨true, true, true, true, true, true, true, true⟩
  simulate := false
  float := .exact

/-- A block of results: TIME1 to TIME3, CLOCK_COUNT1 and 2, CALIBRATION1 and 2; the rest 0. -/
def results (t1 k1 t2 k2 t3 cal1 cal2 : Word24) : File24 Word24 :=
  ⟨t1, k1, t2, k2, t3, 0, 0, 0, 0, 0, 0, cal1, cal2⟩

/-- A turn in which the environment does nothing and every draw is favourable. -/
def quiet : Turn :=
  ⟨[], 0, .clean, [], [], File24.fill .held, false, 0xFF, false, [], results 0 0 0 0 0 0 0, false, .ignored, false, false,
    false, true, true, 0⟩

/-- A turn whose transfer is corrupt: these bytes arrive. -/
def noisy (data : List Byte) : Turn := { quiet with noise := .corrupt, data := data }

/-- The block at rest in a power state: bus open, ENABLE high, the target at its reset values, these turns ahead. -/
def rested (p : PState) (turns : List Turn) : State :=
  { State.resetWith bench with
    busOpen := true
    pstate := p
    world := { World.atReset bench with lines := ⟨true, true, false, false, false, false⟩, script := turns } }

/-- The same with another target. -/
def withTarget (f : Target → Target) (s : State) : State :=
  { s with world := { s.world with target := f s.world.target } }

/-- The same with INT_STATUS at a value. -/
def withStatus (v : Byte) (s : State) : State :=
  withTarget (fun t => { t with r8 := { t.r8 with intStatus := v } }) s

/-- The configuration of program P2: mode 1, 40 calibration periods, one stop. -/
def cfg1 : Cfg := ⟨1, false, false, false, false, 40, 1, 1, 0x0000#16, 0x07BC#16⟩

/-- The eight-bit mirror after P2's CONFIGURE. -/
def mirror1 : File8 (Slot 8) :=
  configured8 (File8.fill Slot.absent) 0x00#8 0xC0#8 0x07#8 0x0000#16 0x07BC#16

/-- The block configured as in P2. -/
def configured (turns : List Turn) : State :=
  withTarget (fun t => { t with r8 := ⟨0x00, 0xC0, 0x00, 0x07, 0xFF, 0xFF, 0x07, 0xBC, 0x00, 0x00⟩ })
    { rested .configured turns with
      cfg := some cfg1
      calPeriods := some 40
      mirror8 := mirror1
      mirror16 := ⟨Slot.absent, Slot.fresh 0x07BC, Slot.fresh 0x0000⟩ }

/-- Configured, with a live block of results in the mirror, for a mode, averaging and calibration periods. -/
def computed (mode avg periods : Nat) (x : File24 Word24) : State :=
  { configured [] with
    cfg := some { cfg1 with measMode := mode, avgCycles := avg, calPeriods := periods }
    calPeriods := some periods
    mirror8 := { mirror1 with
      config1 := Slot.fresh (if mode = 1 then 0x00 else 0x02)
      config2 := Slot.fresh (if avg = 1 then 0x00 else 0x10) }
    mirror24 := x.map Slot.fresh }

/-- The state an operation answers, if it answers one. -/
def nextOf (o : Host.Outcome State Fault Refusal) : Option State :=
  match o with
  | .next s => some s
  | .fault e => nomatch e
  | .refused _ => none

/-- The operation answers a next state of which `f` holds. -/
def leads (o : Host.Outcome State Fault Refusal) (f : State → Bool) : Bool := (nextOf o).any f

/-- The bus frames of a log; of a write frame the bytes sent. -/
def framesOf (l : List Observation) : List (List Byte × List Byte) :=
  l.filterMap fun o =>
    match o with
    | .frame tx rx => some (tx, rx)
    | .sent tx => some (tx, [])
    | _ => none

/-! ## WellFormed: an ill-formed term for each check -/

/-- With the five below, the witnesses of `IllFormedOperandsRefused`'s hypothesis. -/
theorem test_wf_speed_positive : (Instr.setClockSpeed 0 false).wellFormed defaultLayout = false := by decide +kernel

theorem test_wf_stop_mask :
    (Instr.configure ⟨1, false, false, false, false, 40, 1, 1, 65535, .count 5⟩).wellFormed defaultLayout = false := by decide

theorem test_wf_reg_write_result : (Instr.regWrite (.result .time1) 0).wellFormed defaultLayout = false := by decide

theorem test_wf_reg_write_width : (Instr.regWrite (.byte .intMask) 256).wellFormed defaultLayout = false ∧
    (Instr.regWrite (.pair .clockOvf) 65536).wellFormed defaultLayout = false := by decide

theorem test_wf_reg_write_reserved : (Instr.regWrite (.byte .config1) 0x04).wellFormed defaultLayout = false ∧
    (Instr.regWrite (.byte .config2) 0x05).wellFormed defaultLayout = false := by decide

theorem test_wf_reserved_hop : Instr.reservedHopF.wellFormed defaultLayout = false := by decide

/-! ## Decoding, from words written out from the encoding tables (R121 to R127, R148; 95_test_vectors 2.1) -/

theorem test_decode_rd8 : decode (.frame [0b00001001, 0x00]) = .ok (.rd8 .stopMaskL) := by decide

theorem test_decode_wr8 : decode (.frame [0b01000011, 0x07]) = .ok (.wr8 .intMask 0x07) := by decide

theorem test_decode_rd16 : decode (.frame [0b10001000, 0x00, 0x00]) = .ok (.rd16 .stopMask) := by decide

theorem test_decode_wr16 : decode (.frame [0b11000110, 0x07, 0xBC]) = .ok (.wr16 .clockOvf 0x07BC) := by decide

theorem test_decode_rd24 : decode (.frame [0b00011001, 0x00, 0x00, 0x00]) = .ok (.rd24 .clockCount5) := by decide

theorem test_decode_rdall8 : decode (.frame [0b10000000, 0, 0, 0, 0, 0, 0, 0, 0, 0, 0]) = .ok .rdall8 := by decide

theorem test_decode_rdall24 : decode (.frame (0b10010000 :: zeros 39)) = .ok .rdall24 := by decide

theorem test_decode_power_operations :
    decode (.hop 0b0000 []) = .ok .openBus ∧
    decode (.hop 0b0001 [.int 20000000, .flag true]) = .ok (.setClockSpeed 20000000 true) ∧
    decode (.hop 0b0010 []) = .ok .powerOff ∧ decode (.hop 0b0011 []) = .ok .powerOn ∧
    decode (.hop 0b1011 []) = .ok .cleanup := by decide +kernel

theorem test_decode_configuration_operations :
    decode (.hop 0b0100 [.int 2, .flag true, .flag false, .flag true, .flag false, .int 40, .int 1, .int 3, .int 0,
      .rat (165 / 1000000)]) =
      .ok (.configure ⟨2, true, false, true, false, 40, 1, 3, 0, .timeout (165 / 1000000)⟩) ∧
    decode (.hop 0b0101 []) = .ok .configureRetain ∧ decode (.hop 0b1101 []) = .ok .hardRecover := by decide +kernel

theorem test_decode_measurement_operations :
    decode (.hop 0b0110 []) = .ok .measure ∧ decode (.hop 0b0111 [.flag false]) = .ok (.clearStatus false) ∧
    decode (.hop 0b1010 []) = .ok .computeTofs := by decide

theorem test_decode_register_operations :
    decode (.hop 0b1000 []) = .ok .readRegs8 ∧ decode (.hop 0b1001 []) = .ok .readRegs24 ∧
    decode (.hop 0b1100 [.name (.pair .coarseOvf)]) = .ok (.regRead (.pair .coarseOvf)) ∧
    decode (.hop 0b1110 [.addr 0x01, .int 0xC2]) = .ok (.regWrite (.byte .config2) 0xC2) ∧
    decode (.hop 0b1111 []) = .ok .reservedHopF := by decide

theorem test_decode_refuses_shapes :
    decode (.frame [0x0D, 0x00]) = .error .reservedAddress ∧
    decode (.frame [0x1D, 0, 0, 0]) = .error .reservedAddress ∧
    decode (.frame [0x50, 0x00, 0x01, 0xF4]) = .error .resultWrite ∧
    decode (.frame [0x80, 0, 0]) = .error .illegalShape ∧ decode (.frame [0x90, 0, 0, 0]) = .error .illegalShape ∧
    decode (.frame [0, 0, 0, 0]) = .error .illegalShape ∧ decode (.frame [0x10, 0]) = .error .illegalShape := by decide

theorem test_table_words : decodeTableWord 8 0x80 = some .rdall8 ∧ decodeTableWord 8 0x90 = some .rdall24 ∧
    decodeTableWord 8 0x40 = some (.wr8 .config1 0) ∧ decodeTableWord 8 0x6 = some .measure := by decide

theorem test_table_word_runs :
    step (State.reset.withFetchWord 8 0x6) = .refused .busNotOpen := by rfl

/-! ## Operands: configuration values and normalisation (95_test_vectors 2.2 to 2.4) -/

/-- The bytes of a configuration: the two tables of 2.2. -/
theorem test_config_bytes :
    config1Of defaultLayout ⟨2, true, true, true, true, 40, 1, 1, 0, 1⟩ = 0xBA ∧
    config1Of defaultLayout { cfg1 with startFalling := true } = 0x08 ∧ config1Of defaultLayout { cfg1 with stopFalling := true } = 0x10 ∧
    config2Of defaultLayout { cfg1 with calPeriods := 20, avgCycles := 4, numStop := 2 } = 0x91 ∧
    config2Of defaultLayout { cfg1 with calPeriods := 10, avgCycles := 16, numStop := 4 } = 0x63 := by decide

/-- S1 and S2. -/
theorem test_rounding :
    [1, 2, 11, 21, 41].map (fun r => (normCalPeriods r).1) = [2, 2, 20, 40, 40] ∧
    [0, 3, 130].map (fun a => (normAvgCycles a).1) = [1, 4, 128] := by decide

/-- The overflow vectors of 2.2 and 2.3. -/
theorem test_overflow :
    (overflowCount (1 / 12000000) (.timeout (165 / 1000000))).1 = 0x07BC ∧
    (overflowCount (1 / 12000000) (.timeout (16505 / 100000000))).1 = 1981 ∧
    overflowCount (1 / 12000000) (.timeout (1 / 100)) = (65535, [.timeoutClamped]) ∧
    raiseOverflow 100 100 = (101, [.overflowRaised]) ∧ raiseOverflow 100 101 = (101, []) := by decide +kernel

/-- Four rows of 2.4. -/
theorem test_speeds :
    chosenSpeed bench 30000000 false = (25000000, [.speedClamped]) ∧ chosenSpeed bench 10000 true = (10000, []) ∧
    chosenSpeed bench 33000000 true = (33000000, [.aboveRatedMax]) ∧
    chosenSpeed bench 40000000 true = (33000000, [.aboveCeiling]) := by decide +kernel

/-! ## Instructions, one step each -/

/-- 2.1: RD8 INT_MASK after reset. -/
theorem test_rd8 : leads (exec (.rd8 .intMask) (rested .on [quiet]))
    fun t => t.result == .byte 0x07 && t.log == [.frame [0x03, 0x00] [0x00, 0x07]] := by decide +kernel

/-- 2.1: WR8 INT_STATUS, 0x19 with 0x1D leaves 0x04. -/
theorem test_wr8_clears : leads (exec (.wr8 .intStatus 0x19) (withStatus 0x1D (rested .on [quiet])))
    fun t => t.world.target.r8.intStatus == 0x04 && t.log == [.sent [0x42, 0x19]] := by decide +kernel

/-- 2.1: WR8 CONFIG1, 0x03 arms. -/
theorem test_wr8_arms : leads (exec (.wr8 .config1 0x03) (rested .on [quiet]))
    fun t => t.world.target.r8.config1 == 0x03 && t.world.target.phase == .armed := by decide +kernel

/-- 2.1: RD16 COARSE_CNTR_OVF after reset. -/
theorem test_rd16 : leads (exec (.rd16 .coarseOvf) (rested .on [quiet]))
    fun t => t.result == .half 0xFFFF && t.log == [.frame [0x84, 0, 0] [0x00, 0xFF, 0xFF]] := by decide +kernel

/-- 2.1: WR16 CLOCK_CNTR_OVF, 0x07BC. -/
theorem test_wr16 : leads (exec (.wr16 .clockOvf 0x07BC) (rested .on [quiet]))
    fun t => t.world.target.r8.clockOvfH == 0x07 && t.world.target.r8.clockOvfL == 0xBC := by decide +kernel

/-- 2.1: RD24 CALIBRATION2 with 3900. -/
theorem test_rd24 : leads (exec (.rd24 .calibration2)
      (withTarget (fun t => { t with r24 := results 0 0 0 0 0 100 3900 }) (rested .on [quiet])))
    fun t => t.result == .word 3900 && t.log == [.frame [0x1C, 0, 0, 0] [0x00, 0x00, 0x0F, 0x3C]] := by
  decide +kernel

/-- 2.1: RDALL8 after reset. -/
theorem test_rdall8 : leads (exec .rdall8 (rested .on [quiet]))
    fun t => framesOf t.log == [(0x80 :: zeros 10, [0, 0x00, 0x40, 0x00, 0x07, 0xFF, 0xFF, 0xFF, 0xFF, 0x00, 0x00])] :=
  by decide +kernel

/-- 2.1: RDALL24, TIME1 = 500, CALIBRATION1 = 100, CALIBRATION2 = 3900. -/
theorem test_rdall24 : leads (exec .rdall24
      (withTarget (fun t => { t with r24 := results 500 0 0 0 0 100 3900 }) (rested .on [quiet])))
    fun t => (framesOf t.log).map (·.2) ==
      [[0, 0, 0x01, 0xF4] ++ zeros 30 ++ [0, 0, 0x64, 0, 0x0F, 0x3C]] := by decide +kernel

/-- P1: a READ_REGS8 after configuration fills the mirror. -/
theorem test_readRegs8 : leads (exec .readRegs8 (configured [quiet]))
    fun t => t.mirror8.coarseOvfH == Slot.fresh 0xFF && t.mirror16.coarseOvf == Slot.fresh 0xFFFF &&
      t.mirror16.clockOvf == Slot.fresh 0x07BC := by decide +kernel

/-- P2: READ_REGS24 puts TIME1 = 500 in the mirror. -/
theorem test_readRegs24 : leads (exec .readRegs24
      (withTarget (fun t => { t with r24 := results 500 0 0 0 0 100 3900 }) (rested .on [quiet])))
    fun t => t.mirror24.time1 == Slot.fresh 500 && t.mirror24.calibration2 == Slot.fresh 3900 := by decide +kernel

/-- R170: REG_READ of a pair. -/
theorem test_regRead : leads (exec (.regRead (.pair .clockOvf)) (configured [quiet]))
    fun t => t.result == .half 0x07BC && t.mirror8.clockOvfL == Slot.fresh 0xBC := by decide +kernel

/-- R171: REG_WRITE of INT_STATUS writes no mirror slot; of CONFIG1 the slot has START_MEAS 0. -/
theorem test_regWrite :
    leads (exec (.regWrite (.byte .intStatus) 0x1F) (rested .on [quiet]))
      (fun t => t.mirror8.intStatus == Slot.absent) ∧
    leads (exec (.regWrite (.byte .config1) 0x43) (rested .on [quiet]))
      (fun t => t.mirror8.config1 == Slot.fresh 0x02 && t.world.target.r8.config1 == 0x03) := by decide +kernel

/-- R41: PARITY_EN is written 0; R233: `m[0x00] | START_MEAS`; R29: the places of the bits. -/
theorem test_arm_byte : armByte defaultLayout 0b01100010 = 0b00100011 := by decide

/-- R191: OPEN drives the outputs low; R192: a transport that cannot be opened is fatal. -/
theorem test_open :
    leads (exec .openBus { rested .off (List.replicate 5 quiet) with busOpen := false })
      (fun t => t.busOpen && t.world.lines == ⟨false, false, false, false, false, false⟩) ∧
    leads (exec .openBus { rested .off [{ quiet with opens := false }] with busOpen := false })
      (fun t => t.fatal == some .busUnavailable && !t.busOpen) := by decide +kernel

/-- 2.4: 30 000 000 without force. -/
theorem test_setClockSpeed : leads (exec (.setClockSpeed 30000000 false) (rested .off []))
    fun t => t.busSpeed == some 25000000 && t.log == [.warned .speedClamped] := by decide +kernel

/-- R195: OFF resets the target, and slots keep their values, stale. -/
theorem test_off : leads (exec .powerOff (configured (List.replicate 3 quiet)))
    fun t => t.world.target.r8 == defaultReset8 && t.mirror8.config2 == ⟨some 0xC0, true⟩ && t.pstate == .off &&
      t.world.time == 1 / 1000 := by decide +kernel

/-- R196: ON. -/
theorem test_on : leads (exec .powerOn { rested .off [] with
      world := { World.atReset bench with script := List.replicate 4 quiet } })
    fun t => t.world.lines.enable && t.world.lines.oscEnable && t.pstate == .on && t.world.time == 1 / 100 := by
  decide +kernel

/-- R214: CLEANUP releases the bus. -/
theorem test_cleanup : leads (exec .cleanup (configured (List.replicate 6 quiet)))
    fun t => !t.busOpen && t.pstate == .off && t.world.lines == ⟨false, false, false, false, false, false⟩ := by
  decide +kernel

/-- P1: the ten frames of its CONFIGURE. -/
theorem test_configure : leads (exec (.configure ⟨2, false, false, false, false, 40, 1, 3, 0,
      .timeout (165 / 1000000)⟩) (rested .on (List.replicate 10 quiet)))
    fun t => framesOf t.log == [([0x40, 0x02], []), ([0x00, 0], [0, 0x02]), ([0x41, 0xC2], []), ([0x01, 0], [0, 0xC2]),
      ([0x43, 0x07], []), ([0x03, 0], [0, 0x07]), ([0xC8, 0, 0], []), ([0x88, 0, 0], [0, 0, 0]),
      ([0xC6, 0x07, 0xBC], []), ([0x86, 0, 0], [0, 0x07, 0xBC])] && t.pstate == .configured := by decide +kernel

/-- P3's variant: RETRY_LIMIT 1 and a corrupt read-back of CONFIG2. -/
theorem test_configure_gives_up : leads (exec (.configure ⟨2, false, false, false, false, 40, 1, 3, 0, .count 1980⟩)
      { rested .on [quiet, quiet, quiet, noisy [0x00, 0xC0], quiet, quiet, quiet] with
        params := { bench with retryLimit := some 1 } })
    fun t => t.fatal == some .configurationWriteFailure && t.pstate == .off &&
      t.mirror8.config1 == ⟨some 0x02, true⟩ && t.mirror8.config2.value == none &&
      t.world.target == Target.inReset bench := by decide +kernel

/-- P4: CONFIGURE_RETAIN's frames, the mirror being P2's. -/
theorem test_configureRetain : leads (exec .configureRetain (configured (List.replicate 10 quiet)))
    fun t => (framesOf t.log).map (·.1) == [[0x40, 0x00], [0, 0], [0x41, 0xC0], [0x01, 0], [0x43, 0x07], [0x03, 0],
      [0xC8, 0, 0], [0x88, 0, 0], [0xC6, 0x07, 0xBC], [0x86, 0, 0]] := by decide +kernel

/-- P4: HARD_RECOVER brings the configuration back, 24-bit slots stale. -/
theorem test_hardRecover : leads (exec .hardRecover
      { configured (List.replicate 17 quiet) with mirror24 := (results 500 0 0 0 0 100 3900).map Slot.fresh })
    fun t => t.pstate == .configured && t.world.target.r8.config2 == 0xC0 && t.mirror24.time1 == ⟨some 500, true⟩ &&
      t.mirror8.config2 == Slot.fresh 0xC0 := by decide +kernel

/-- A turn in which TRIG rises. -/
def ready : Turn := { quiet with before := [(0, .trigReady)] }

/-- The turns of P2's MEASURE: the TRIG sample, the arming write, the trigger wait with TRIG rising before its first
sample, the interrupt wait with a START and a STOP edge and the end of the calibration before its first sample, the bulk
read. -/
def turnsP2 : List Turn :=
  [quiet, { quiet with results := ⟨500, 7, 7, 7, 7, 7, 7, 7, 7, 7, 7, 100, 3900⟩ }, quiet, ready, quiet,
   { quiet with before := [(1 / 1000000, .startEdge true), (1 / 1000000, .stopEdge true), (1 / 1000000, .finish)] },
   quiet]

/-- P2: MEASURE yields 1; the target holds INT_STATUS 0x19 and START_MEAS 0; uncaptured stop slots stay 0, the registers
that are no stop slot of mode 1 are drawn (log entry 39). -/
theorem test_measure_success : leads (exec .measure (configured turnsP2))
    fun t => t.outcome == some (.success 1) && t.tof.t1 == some (bench.clockPeriod * (195 / 38)) &&
      t.world.target.r8.intStatus == 0x19 && t.world.target.r8.config1 == 0x00 &&
      t.mirror24 == (⟨500, 7, 0, 7, 0, 7, 0, 7, 0, 7, 7, 100, 3900⟩ : File24 Word24).map Slot.fresh := by decide +kernel

/-- P2's turns, but for equal calibration values. -/
def turnsUncalibrated : List Turn :=
  [quiet, { quiet with results := ⟨500, 7, 7, 7, 7, 7, 7, 7, 7, 7, 7, 2100, 2100⟩ }] ++ turnsP2.drop 2

/-- P4's turns: TRIG rises, INT never falls: the clock runs past the deadline after the one sample. -/
def turnsP4 : List Turn := [quiet, quiet, quiet, ready, quiet, quiet, { quiet with wait := 1 }]

/-- P4: no START edge: InterruptTimeout, one frame, between 215 and 235 microseconds. -/
theorem test_measure_timeout : leads (exec .measure (configured turnsP4))
    fun t => t.outcome == some .interruptTimeout && framesOf t.log == [([0x40, 0x01], [])] &&
      decide (215 / 1000000 ≤ t.world.time) && decide (t.world.time ≤ 235 / 1000000) := by decide +kernel

/-- 2.6: CLEAR_STATUS, the first, second and fourth rows. -/
theorem test_clearStatus :
    leads (exec (.clearStatus false) (withStatus 0x19 (rested .on [quiet, quiet])))
      (fun t => t.log == [.frame [0x02, 0] [0, 0x19], .sent [0x42, 0x19]] && t.mirror8.intStatus == Slot.fresh 0x19 &&
        t.world.target.r8.intStatus == 0x00) ∧
    leads (exec (.clearStatus false) (rested .on [quiet]))
      (fun t => t.log == [.frame [0x02, 0] [0, 0]]) ∧
    leads (exec (.clearStatus true) (withStatus 0x04 (rested .on [quiet])))
      (fun t => t.log == [.sent [0x42, 0x1F]] && t.mirror8.intStatus == Slot.absent &&
        t.world.target.r8.intStatus == 0x00) := by decide +kernel

/-- 2.7: mode 2, averaging 1, the second and third rows. -/
theorem test_computeTofs_mode2 :
    leads (exec .computeTofs (computed 2 1 10 (results 1050 16 525 40 1050 2100 21000)))
      (fun t => t.tof.t1 == some (bench.clockPeriod * (65 / 4)) && t.tof.t2 == some (bench.clockPeriod * 40) &&
        t.delta.d1 == some (bench.clockPeriod * (95 / 4)) && t.result == .pulses 2) ∧
    leads (exec .computeTofs (computed 2 1 10 (results 1050 3 2000 0 0 2100 21000)))
      (fun t => t.tof.t1 == some (bench.clockPeriod * (107 / 42)) && t.result == .pulses 1) := by decide +kernel

/-- 2.7: averaging 4; a negative calibration; the zero guard (S4). -/
theorem test_computeTofs_corners :
    leads (exec .computeTofs (computed 2 4 10 (results 1050 16 525 0 0 2100 21000)))
      (fun t => t.tof.t1 == some (bench.clockPeriod * (17 / 4))) ∧
    leads (exec .computeTofs (computed 1 1 40 (results 500 0 0 0 0 3900 100)))
      (fun t => t.tof.t1 == some (bench.clockPeriod * (-195 / 38)) && t.calCount == some (-3800 / 39)) ∧
    leads (exec .computeTofs (computed 1 1 10 (results 500 0 0 0 0 2100 2100)))
      (fun t => t.result == .outcome .noCalibration && t.calCount == some 0 && t.tof == Tofs.none) := by decide +kernel

/-- 2.8: the histogram of eight outcomes. -/
theorem test_histogram :
    histogram [.success 2, .success 2, .interruptTimeout, .success 0, .noCalibration, .success 3, .success 2,
      .triggerRiseTimeout] = [1, 0, 3, 1, 0, 0, 1, 1, 0, 1, 0] := by decide

/-- P5: SIM_PULSES with two STOP pulses drawn, then the overflow at 1980 periods with a calibration. -/
theorem test_simPulses : ((withTarget (fun t => { t with phase := .ready }) { configured
      (List.replicate 3 { quiet with pulses := 2 } ++ List.replicate 6 { quiet with wait := 1 / 100000 }) with
        params := { bench with simulate := true } }).simPulses { cfg1 with measMode := 2, numStop := 3 }).log =
    [.drive .start true, .drive .start false, .drive .stop true, .drive .stop false, .drive .stop true,
      .drive .stop false] := by decide +kernel

/-- R94, R99: a write frame receives as many bytes as it sends; they are ignored. -/
theorem test_write_receives : ((rested .on [{ quiet with echo := [0x55] }]).world.transfer bench [0x43, 0x07]).1 =
    [0x00, 0x55] := by decide +kernel

/-- R7, R28: with START_MEAS at bit 7 of CONFIG1 a write of 0x80 arms, one of 0x01 does not. -/
theorem test_layout :
    let L := { defaultLayout with forceCal := 0, startMeas := 7 }
    let s := { rested .on [quiet] with params := { bench with layout := L } }
    L.wf = true ∧ leads (exec (.wr8 .config1 0x80) s) (fun t => t.world.target.busy) ∧
    leads (exec (.wr8 .config1 0x01) s) (fun t => !t.world.target.busy) := by decide +kernel

/-- R34, R101, R337: in mode 2 the coarse counter's overflow leaves INT alone until the measurement ends: its status bit is
set then with the others, or at once where INT_MASK does not enable it. -/
theorem test_coarse_mode2 :
    let t := { Target.inReset bench with
      phase := .started, intSilent := false, r8 := { defaultReset8 with config1 := 0x03 } }
    let u := t.advanceCoarse bench 65535
    let v := { t with r8 := { t.r8 with intMask := 0x05 } }.advanceCoarse bench 65535
    let ends := fun (u : Target) => (u.beginEnd 0x11 false).complete defaultLayout quiet
    u.phase = .started ∧ u.r8.intStatus = 0x00 ∧ u.intLevel bench = true ∧
    v.phase = .started ∧ v.r8.intStatus = 0x02 ∧ v.intLevel bench = true ∧
    (ends u).r8.intStatus = 0x13 ∧ (ends (t.advanceCoarse bench 65534)).r8.intStatus = 0x11 := by decide +kernel

/-- R101: before INT is driven RD8 may see the completion in INT_STATUS and then START_MEAS still set, or the reverse, and
after it neither: of a target that is ending with CONFIG1 0x01 and MEAS_STARTED_FLAG set. -/
theorem test_ending_reads :
    let t := ({ Target.inReset bench with
      phase := .started, intSilent := false, r8 := { defaultReset8 with config1 := 0x01, intStatus := 0x08 } }).beginEnd 0x11 false
    let read := fun (turn : Turn) (r : Reg8) (u : Target) => u.readout8 defaultLayout turn r
    let early := { quiet with landed := 0x00, cleared := true }
    read quiet .intStatus t = 0x19 ∧ read quiet .config1 t = 0x01 ∧ t.intLevel bench = true ∧
    read early .intStatus t = 0x00 ∧ read early .config1 t = 0x00 ∧
    read early .intStatus (t.complete defaultLayout quiet) = 0x19 ∧
    read quiet .config1 (t.complete defaultLayout quiet) = 0x00 ∧
    (t.complete defaultLayout quiet).intLevel bench = false := by decide +kernel

/-- R304: S3's numbers, and a mode-2 measurement, computed in binary64 left to right; the expected values are those of
IEEE 754 doubles in the order of R280, not the model's. -/
theorem test_binary64 :
    let p := { bench with float := .binary64 .nearestEven }
    leads (exec .computeTofs { computed 1 1 40 (results 500 0 0 0 0 100 3900) with params := p })
      (fun t => t.delivered.calCount == some (3428220870193887 / 35184372088832 : Rat) &&
        t.delivered.normLsb == some (8271597713152727 / 9671406556917033397649408 : Rat) &&
        t.delivered.tof.t1 == some (4038866070875355 / 9444732965739290427392 : Rat) &&
        t.tof.t1 == some (bench.clockPeriod * (195 / 38))) ∧
    leads (exec .computeTofs { computed 2 1 10 (results 1050 16 525 40 1000 2100 21000) with params := p })
      (fun t => t.delivered.tof.t1 == some (3197435639442989 / 2361183241434822606848 : Rat) &&
        t.delivered.delta.d1 == some (146183126647611 / 73786976294838206464 : Rat)) := by
  decide +kernel

/-- R325: TRIG rises after the last sample, before the clock is read past the deadline: the wait times out; where the
clock is read before the deadline, the next sample sees it. -/
theorem test_wait_race :
    let w := fun turns => (withTarget (fun t => { t with phase := .armed }) (configured turns)).world
    ((w [quiet, quiet, { ready with wait := 1 }]).waitLine bench .trig1 true (1 / 10)).1 = .timeout ∧
    ((w [quiet, quiet, ready, quiet, quiet]).waitLine bench .trig1 true (1 / 10)).1 = .seen := by decide +kernel

/-- R372: ENABLE raised at once after OPEN's drive low may leave the target as it was. -/
theorem test_enable_too_early :
    let w := ((configured [quiet]).driveLine .enable false).world
    (w.enableHigh bench { quiet with resets := false }).target.r8.config2 = 0xC0 ∧
    (w.enableHigh bench quiet).target.r8.config2 = 0x40 ∧
    ({ w with time := w.time + 1 / 1000 }.enableHigh bench { quiet with resets := false }).target.r8.config2 = 0x40 := by
  decide +kernel

/-- A CONFIGURE whose last write is still to be verified. -/
def goingOn (turns : List Turn) : State :=
  { configured turns with
    pstate := .on
    calPeriods := none
    pending := some ⟨.configure, [.pair .clockOvf 0x07BC]⟩ }

/-- R200 without a limit: a corrupt read-back does not end the loop; a later attempt completes the CONFIGURE. -/
theorem test_unbounded_retry :
    leads (step (goingOn [quiet, quiet])) (fun t => t.pstate == .configured && t.calPeriods == some 40) ∧
    leads (step (goingOn [noisy [], noisy [], quiet, quiet])) (fun t => t.pstate == .configured && t.pending == none) ∧
    leads (exec .configureRetain { configured [] with pending := some ⟨.configure, []⟩ }) (fun _ => true) = false := by
  decide +kernel

/-! ## Witnesses: for every obligation with hypotheses, a state and operands that meet them -/

theorem leads_next {o : Host.Outcome State Fault Refusal} {f : State → Bool} (h : leads o f = true) :
    ∃ t, o = .next t ∧ f t = true := by
  cases o with
  | next s => exact ⟨s, rfl, h⟩
  | fault e => cases e
  | refused r => cases h

/-- The run goes on. -/
def goes (r : Run) : Bool :=
  match r with
  | .going _ => true
  | .ended _ => false
  | .refused _ => false

theorem witness_LegalFramesAreTheTable :
    (zeros 10).length = 10 ∧ (zeros 39).length = 39 ∧ decode (.frame [0x49, 0xFF]) = .ok (.wr8 .stopMaskL 0xFF) := by
  decide

/-- Addresses at both ends of both reserved ranges; write frames to the first and last result register. -/
theorem witness_ReservedAndResultFramesRefused :
    (∀ c ∈ [0x0A, 0xCF, 0x4A, 0x0F], 0x0A ≤ (c : Byte).toNat % 64 ∧ c.toNat % 64 ≤ 0x0F) ∧
    (∀ c ∈ [0x1D, 0x3F, 0xDD, 0xFF], 0x1D ≤ (c : Byte).toNat % 64) ∧
    (∀ c ∈ [0x50, 0x5C, 0xD0, 0xDC], ((c : Byte).toNat / 64 = 1 ∨ c.toNat / 64 = 3) ∧ 0x10 ≤ c.toNat % 64 ∧
      c.toNat % 64 ≤ 0x1C) := by decide

/-- StepRunsDecodedInstruction: an empty queue, a legal and an illegal request, an operation that goes on and ends. -/
theorem witness_StepRunsDecodedInstruction :
    (rested .on [quiet]).pending = none ∧ ((rested .on [quiet]).place (.hop 0x2 [])).requests = .hop 0x2 [] :: [] ∧
    decode (.hop 0x2 []) = .ok .powerOff ∧ decode (.frame [0x0A, 0x00]) = .error .reservedAddress ∧
    (rested .on [quiet]).requests = [] ∧ (goingOn []).pending = some ⟨.configure, [.pair .clockOvf 0x07BC]⟩ ∧
    goes (State.writeAll .configure [.pair .clockOvf 0x07BC] { configured [quiet, quiet] with pending := none }) = true ∧
    goes (State.writeAll .configure [.pair .clockOvf 0x07BC]
      { configured [quiet, noisy [0x01, 0x00]] with params := { bench with retryLimit := some 1 } }) = false := by
  decide +kernel

theorem witness_EnableLowHoldsTargetReset : bench.pins.enable = true := rfl

theorem configured_inv (turns : List Turn) : (configured turns).Inv :=
  ⟨rfl, rfl, rfl, rfl, rfl, rfl, rfl, rfl, rfl, rfl, rfl⟩

/-- EveryStepKeepsInvariant, ClockForwardParametersFixed: a configured block takes a step, and so does a CONFIGURE that
goes on. -/
theorem witness_EveryStepKeepsInvariant : (configured [quiet]).Inv ∧
    (∃ t, step ((configured (List.replicate 3 quiet)).place (.hop 0x2 [])) = .next t ∧ t.pstate == .off) ∧
    (goingOn [quiet, quiet]).Inv ∧ ∃ t, step (goingOn [quiet, quiet]) = .next t ∧ t.pstate == .configured :=
  ⟨configured_inv _, leads_next (by decide +kernel), ⟨rfl, rfl, rfl, rfl, rfl, rfl, rfl, rfl, rfl, rfl, rfl⟩,
   leads_next (by decide +kernel)⟩

/-- PowerStateFollowsTable, CfgChangesOnlyInConfigure, FatalRefusesEverything: a closed gate, an operation that
completes, one that ends fatally, one that goes on, and what the next step makes of one that goes on. -/
theorem witness_PowerStateFollowsTable :
    gateOpen .measure (rested .on []) = false ∧ gateOpen .openBus (rested .off []) = false ∧
    (∃ t, exec .powerOff (configured (List.replicate 3 quiet)) = .next t ∧ t.fatal == none && t.pending == none) ∧
    (∃ t, exec (.configure ⟨1, false, false, false, false, 2, 1, 1, 0, .count 5⟩)
      { rested .on [quiet, noisy [0x00, 0xFF], quiet, quiet, quiet] with
        params := { bench with retryLimit := some 1 } } = .next t ∧
      (t.fatal != none && t.cfg.isSome && t.pendingSound)) ∧
    (goingOn []).pending ≠ none ∧ (goingOn []).fatal = none ∧ (goingOn []).busOpen = true ∧
    (∃ t, step (goingOn [quiet, quiet]) = .next t ∧ t.fatal == none && t.pending == none) ∧
    ∃ t, step { goingOn [quiet, noisy [0x01], quiet, quiet, quiet] with
      params := { bench with retryLimit := some 1 } } = .next t ∧ t.fatal != none :=
  ⟨by decide, by decide, leads_next (by decide +kernel), leads_next (by decide +kernel), by decide, rfl, rfl,
   leads_next (by decide +kernel), leads_next (by decide +kernel)⟩

/-- A verified write of CONFIG1 with START_MEAS set never reads back, whatever the environment does. -/
theorem never_verified (v : Byte) (n : Nat) (s : State) (h : ∀ x, withoutStartMeas s.params.layout x ≠ v) :
    (State.tries (.byte .config1 v) n s).1 = false := by
  induction n generalizing s with
  | zero => rfl
  | succ n ih =>
    unfold State.tries
    split
    · rename_i e
      simp only [State.attemptWrite, State.attempt8, Prod.mk.injEq, beq_iff_eq, if_true] at e
      rw [((BusOnly.wr8 s .config1 v).trans (BusOnly.rd8 _ .config1)).params] at e
      exact absurd e.1 (h _)
    · rename_i t e
      refine ih t ?_
      have := (BusOnly.attemptWrite s (.byte .config1 v)).params
      rw [e] at this
      rw [this]; exact h

/-- StepRunsDecodedInstruction, PowerStateFollowsTable, BoundedRetryAlwaysEnds: an operation that goes on without a limit
and goes on again. -/
theorem witness_goes_on_again : ∃ t, step { goingOn [] with pending := some ⟨.configure, [.byte .config1 0x01]⟩ } =
    .next t ∧ t.fatal = none ∧ t.pending ≠ none := by
  let b : State := { configured [] with pstate := .on, calPeriods := none }
  have h := never_verified 0x01 b.attemptsNow b (by decide)
  have e : State.writeAll .configure [.byte .config1 0x01] b = .ended
      { (State.tries (.byte .config1 0x01) b.attemptsNow b).2 with
        pending := some ⟨.configure, [.byte .config1 0x01]⟩ } := by
    have k := (BusOnly.tries (.byte .config1 0x01) b.attemptsNow b).params
    unfold State.writeAll
    generalize State.tries (.byte .config1 0x01) b.attemptsNow b = r at *
    obtain ⟨_, u⟩ := r
    subst h
    have k' : u.params.retryLimit = none := congrArg Params.retryLimit k
    simp [k']
  refine ⟨{ (State.tries (.byte .config1 0x01) b.attemptsNow b).2 with
    pending := some ⟨.configure, [.byte .config1 0x01]⟩ }, ?_, ?_, by simp⟩
  · show (State.finishWrites b .configure [.byte .config1 0x01]).outcome = _
    rw [State.finishWrites, e]; rfl
  · exact congrArg State.fatal (BusOnly.tries (.byte .config1 0x01) b.attemptsNow b).frame

/-- Rd8YieldsRegister, Wr8StoresByte, Rd16YieldsPair, Wr16StoresPair, Rd24YieldsResult, Rdall8YieldsBlock,
Rdall24YieldsBlock, StatusWriteClearsOnes, ReadRegs8FillsMirror, ReadRegs24FillsMirror, RegReadYieldsAndMirrors: an
accessible target, idle and busy, a clean turn, one with the environment acting inside a bulk read and one without. -/
theorem witness_Rd8YieldsRegister :
    (rested .on [quiet]).Accessible ∧ (rested .on [quiet]).turn.noise = .clean ∧ (rested .on [quiet]).turn.gaps = [] ∧
    (rested .on [quiet]).around.target.busy = false ∧
    (withTarget (fun t => { t with phase := .armed }) (rested .configured [quiet])).Accessible ∧
    (withTarget (fun t => { t with phase := .armed }) (rested .configured [quiet])).around.target.busy = true ∧
    (rested .on [{ quiet with gaps := [[(1, .trigReady)]] }]).turn.gaps ≠ [] ∧
    (rested .on [noisy [0x01]]).turn.noise = .corrupt := by
  decide +kernel

/-- CONFIG1 with START_MEAS set, another register, and a pair, each written and then read over clean transfers. -/
theorem witness_WriteThenReadYieldsWritten :
    (rested .on [quiet, quiet]).Accessible ∧ holdsReservedCode defaultLayout .config1 0x83 = false ∧
    holdsReservedCode defaultLayout .config2 0xC4 = false ∧ (rested .on [quiet, quiet]).turn.noise = .clean ∧
    (∃ t, exec (.wr8 .config1 0x83) (rested .on [quiet, quiet]) = .next t ∧ t.turn.noise == .clean) ∧
    (∃ t, exec (.wr8 .config2 0xC4) (rested .on [quiet, quiet]) = .next t ∧ t.turn.noise == .clean) ∧
    ∃ t, exec (.wr16 .stopMask 0xFFFF) (rested .on [quiet, quiet]) = .next t ∧ t.turn.noise == .clean :=
  ⟨by decide, by decide, by decide, by decide, leads_next (by decide +kernel), leads_next (by decide +kernel),
   leads_next (by decide +kernel)⟩

theorem witness_PairIsItsTwoBytes :
    leads (exec (.rd8 .clockOvfH) (configured [quiet, quiet, quiet])) (fun t => t.turn.noise == .clean &&
      leads (exec (.rd8 .clockOvfL) t) (fun u => u.turn.noise == .clean &&
        leads (exec (.rd16 .clockOvf) u) (fun x => x.result == .half 0x07BC))) = true := by decide +kernel

/-- An idle target, a wedged one, an arming without START_MEAS, and a second arming under each draw. -/
theorem witness_StartMeasArmsTarget :
    leads (exec (.wr8 .config1 0x01) (rested .on [quiet])) (fun t => t.world.target.busy) ∧
    leads (exec (.wr8 .config1 0x01) (withTarget (fun t => { t with wedged := true }) (rested .on [quiet])))
      (fun t => !t.world.target.busy) ∧
    leads (exec (.wr8 .config1 0xFE) (rested .on [quiet])) (fun t => !t.world.target.busy) ∧
    ∀ d ∈ [Rearm.ignored, .restarts, .wedges],
      leads (exec (.wr8 .config1 0x01)
        (withTarget (fun t => { t with phase := .started }) (rested .on [{ quiet with rearm := d }])))
        (fun t => t.world.target.busy && t.world.target.wedged == (d == .wedges)) := by decide +kernel

theorem witness_WriteTouchesOnlyAddressed :
    leads (exec (.wr8 .intMask 0x00) (rested .on [noisy [0xA5]])) (fun t => t.world.target.r8.intMask == 0xA5) ∧
    leads (exec (.wr8 .config1 0x01) (rested .on [quiet])) (fun t => t.world.target.r8.config1 == 0x01) := by
  decide +kernel

theorem witness_RegWriteSendsAndMirrors : (rested .on [quiet]).Accessible ∧ (255 : Nat) < 256 ∧
    holdsReservedCode defaultLayout .intMask (BitVec.ofNat 8 255) = false ∧
    holdsReservedCode defaultLayout .config1 (BitVec.ofNat 8 0xFB) = false ∧ (65535 : Nat) < 65536 ∧
    (rested .on [quiet]).turn.noise = .clean := by decide +kernel

theorem witness_OpenTakesBusOrFails : State.reset.pending = none ∧ State.reset.fatal = none ∧
    State.reset.busOpen = false ∧ State.reset.mstate = .idle ∧
    ({ rested .off [quiet] with busOpen := false } : State).turn.opens = true ∧
    ({ rested .off [{ quiet with opens := false }] with busOpen := false } : State).turn.opens = false := by
  refine ⟨rfl, rfl, rfl, rfl, ?_, ?_⟩ <;> decide +kernel

/-- The speed at each bound, and just outside it. -/
theorem witness_SetClockSpeedClamps : (rested .off []).Accepting ∧ (0 : Rat) < 49999 ∧
    bench.busMin ≤ bench.busRated ∧ bench.busRated ≤ bench.busCeiling ∧ 49999 < bench.busMin ∧
    bench.busMin ≤ 50000 ∧ (25000000 : Rat) ≤ bench.busRated ∧ bench.busRated < 25000001 ∧
    33000000 ≤ bench.busCeiling ∧ bench.busCeiling < 33000001 := by decide +kernel

/-- The parameters with no pin assigned. -/
def unpinned : Params := { bench with pins := ⟨false, false, false, false, false, false, false, false⟩ }

/-- OffResetsTargetAndMarksStale, OnReleasesTarget, CleanupReleasesEverything: with every pin assigned, and with none;
ENABLE high, low long enough, and low too shortly. -/
theorem witness_OffResetsTargetAndMarksStale : (configured [quiet]).Accepting ∧ (rested .off [quiet]).Accepting ∧
    (rested .off [quiet]).pstate = .off ∧ bench.pins.enable = true ∧ (rested .off []).world.lines.enable = true ∧
    ((rested .off [quiet]).driveLine .enable false).world.lowSince + bench.tResetMin ≤ 1 / 1000 ∧
    ({ rested .off [quiet] with params := unpinned } : State).Accepting ∧ unpinned.pins.enable = false := by
  decide +kernel

/-- NormalisedRequestIsLegal: modes 1, 2 and 3, stop counts 0, 1, 5 and 6. -/
theorem witness_NormalisedRequestIsLegal :
    let q : ConfigRequest := ⟨1, false, false, false, false, 40, 1, 1, 65534, .count 70000⟩
    stopMaskRefused q = false ∧ stopMaskRefused { q with stopMask := -1 } = false ∧
    [1, 2, 3].map (fun m => (normMeasMode m).1) = [1, 2, 1] ∧
    [0, 1, 5, 6].map (fun n => (normNumStop n).1) = [1, 1, 5, 1] := by decide

/-- The stop mask at both ends, the overflow at both ends and as a time. -/
theorem witness_StopMaskAndOverflowNormalised :
    let q : ConfigRequest := ⟨1, false, false, false, false, 40, 1, 1, 65534, .count 65536⟩
    q.stopMask < 65535 ∧ (-1 : Int) < 65535 ∧ q.overflow = .count 65536 ∧
    ((165 / 1000000 : Rat) / bench.clockPeriod).ceil = 1980 ∧
    ((normalise bench q).2 = [.overflowClamped]) ∧
    ((normalise bench { q with stopMask := -1, overflow := .timeout (-1) }).2 =
      [.stopMaskClamped, .timeoutClamped, .overflowRaised]) := by decide +kernel

/-- CalibrationPeriodsRoundUp, AveragingCyclesRoundUp at the bounds of each clause (2.3). -/
theorem witness_CalibrationPeriodsRoundUp :
    [-5, 0, 2, 3, 10, 20, 40, 1000].map (fun r => (normCalPeriods r).1) = [2, 2, 2, 10, 10, 20, 40, 40] ∧
    [0, 1, 5, 65, 128, 129].map (fun a => (normAvgCycles a).1) = [1, 1, 8, 128, 128, 128] := by decide

/-- The default LAYOUT and another one, two legal records, and one that can be none. -/
theorem witness_ConfigBytesCarryFields : cfg1.legal = true ∧ defaultLayout.wf = true ∧
    ({ defaultLayout with forceCal := 0, startMeas := 7 } : Layout).wf = true ∧
    ({ defaultLayout with forceCal := 0 } : Layout).wf = false ∧
    ({ cfg1 with measMode := 2, calPeriods := 2, avgCycles := 128, numStop := 5 } : Cfg).legal = true := by decide

theorem clean_quiet (n : Nat) (s : State) (h : s.world.script = List.replicate n quiet) : s.CleanNext n := by
  refine ⟨by simp [h], fun turn ht => ?_⟩
  rw [h] at ht
  simp only [List.take_replicate, Nat.min_self, List.mem_replicate] at ht
  rw [ht.2]; rfl

/-- ConfigureWritesAndVerifies, ConfigureRetainReapplies; HardRecoverRestoresConfiguration with more turns. -/
theorem witness_ConfigureWritesAndVerifies :
    (configured (List.replicate 10 quiet)).Accessible ∧ bench.layout.wf = true ∧
    stopMaskRefused ⟨2, false, false, false, false, 40, 1, 3, 65534, .count 0⟩ = false ∧
    (configured (List.replicate 10 quiet)).CleanNext 10 ∧ (configured (List.replicate 10 quiet)).cfg ≠ none ∧
    (configured []).mirror8.config1.value = some 0x00 ∧ (configured []).mirror8.config2.value = some 0xC0 ∧
    (configured []).mirror8.intMask.value = some 0x07 ∧ (configured []).mirror8.stopMaskH.value = some 0x00 ∧
    (configured []).mirror8.stopMaskL.value = some 0x00 ∧ (configured []).mirror8.clockOvfH.value = some 0x07 ∧
    (configured []).mirror8.clockOvfL.value = some 0xBC ∧
    (configured (List.replicate 17 quiet)).Accepting ∧ (configured (List.replicate 17 quiet)).pstate = .configured ∧
    (configured (List.replicate 17 quiet)).CleanNext 17 :=
  ⟨by decide, by decide, by decide, clean_quiet 10 _ rfl, by decide, rfl, rfl, rfl, rfl, rfl, rfl, rfl, by decide, rfl,
   clean_quiet 17 _ rfl⟩

theorem configured_ready (turns : List Turn) : (configured turns).MeasureReady cfg1 0x00 40 :=
  ⟨⟨rfl, rfl, rfl, rfl⟩, rfl, rfl, rfl, rfl, 0xC0, rfl,
    show mirrorAgrees defaultLayout cfg1 0x00 0xC0 = true by decide⟩

/-- A bound on attempts, and the hypotheses of each of the four instructions: MEASURE with TRIG high at the sample, the
target still ready from a measurement before. And an operation that goes on without a bound. -/
theorem witness_BoundedRetryAlwaysEnds :
    let s := withTarget (fun t => { t with phase := .ready })
      { configured [quiet] with params := { bench with retryLimit := some 1 } }
    s.params.retryLimit = some 1 ∧ s.Accepting ∧ s.pstate = .configured ∧ s.cfg ≠ none ∧ s.retained ≠ none ∧
    stopMaskRefused ⟨1, false, false, false, false, 40, 1, 1, 0, .count 1⟩ = false ∧
    s.MeasureReady cfg1 0x00 40 ∧ ¬ s.TrigIdle cfg1 ∧
    (goingOn []).pending ≠ none ∧ (goingOn []).fatal = none ∧ (goingOn []).params.retryLimit = none :=
  ⟨rfl, by decide, rfl, by decide, by decide, by decide, ⟨⟨rfl, rfl, rfl, rfl⟩, rfl, rfl, rfl, rfl, 0xC0, rfl, by decide⟩,
   fun h => absurd (h rfl) (by decide +kernel), by decide, rfl, rfl⟩

/-- MeasureYieldsOneOutcome, MeasureSucceedsWithPulseCount: P2's run up to the bulk read. -/
theorem witness_MeasureSucceedsWithPulseCount :
    (configured turnsP2).MeasureReady cfg1 0x00 40 ∧ (configured turnsP2).TrigIdle cfg1 ∧
    (configured turnsP2).TriggerSeen cfg1 0x00 ∧ (configured turnsP2).InterruptSeen cfg1 0x00 ∧
    ((configured turnsP2).completed cfg1 0x00).turn.noise = .clean ∧
    ((configured turnsP2).completed cfg1 0x00).around.target.busy = false ∧
    ((configured turnsP2).completed cfg1 0x00).around.target.r24.calibration2 ≠
      ((configured turnsP2).completed cfg1 0x00).around.target.r24.calibration1 :=
  ⟨configured_ready _, fun _ => by decide +kernel, fun _ => by decide +kernel, fun _ => by decide +kernel,
   by decide +kernel, by decide +kernel, by decide +kernel⟩

theorem witness_InterruptTimeoutTouchesNoResult :
    (configured turnsP4).MeasureReady cfg1 0x00 40 ∧ (configured turnsP4).TrigIdle cfg1 ∧
    (configured turnsP4).TriggerSeen cfg1 0x00 ∧ (configured turnsP4).params.pins.int1 = true ∧
    ((configured turnsP4).interruptWait cfg1 0x00).1 = .timeout :=
  ⟨configured_ready _, fun _ => by decide +kernel, fun _ => by decide +kernel, rfl, by decide +kernel⟩

/-- The turns of a MEASURE whose TRIG never rises. -/
def turnsStill : List Turn := [quiet, quiet, quiet, quiet, { quiet with wait := 1 }]

theorem witness_TriggerTimeoutNamedByPolarity :
    (configured turnsStill).MeasureReady cfg1 0x00 40 ∧ (configured turnsStill).TrigIdle cfg1 ∧
    (configured turnsStill).params.pins.trig1 = true ∧
    ((configured turnsStill).triggerWait cfg1 0x00).1 = .timeout :=
  ⟨configured_ready _, fun _ => by decide +kernel, rfl, by decide +kernel⟩

/-- TRIG already high at the sample: the target is still ready from a measurement before. -/
theorem witness_WrongPolarityRecovers :
    let s := withTarget (fun t => { t with phase := .ready }) (configured [quiet])
    s.MeasureReady cfg1 0x00 40 ∧ s.retained ≠ none ∧ s.params.pins.trig1 = true ∧
    s.sampled.world.level s.params .trig1 ≠ trigIdle cfg1 :=
  ⟨⟨⟨rfl, rfl, rfl, rfl⟩, rfl, rfl, rfl, rfl, 0xC0, rfl, by decide⟩, by decide, rfl, by decide +kernel⟩

/-- A wait whose first sample sees the level and one that times out. -/
theorem witness_WaitLineRespectsDeadline : (0 : Rat) ≤ bench.tTrigDeadline ∧ 0 ≤ bench.tPollSlack ∧
    ((configured [quiet, quiet]).world.waitLine bench .trig1 false bench.tTrigDeadline).1 = .seen ∧
    ((configured [quiet, quiet, { quiet with wait := 1 }]).world.waitLine bench .trig1 true bench.tTrigDeadline).1 =
      .timeout := by
  decide +kernel

/-- Pins assigned and not, and a script whose next three turns draw `num_stop` pulses, and none. -/
theorem witness_SimPulsesBranchOnPins : bench.pins.start = true ∧ bench.pins.stop = true ∧
    unpinned.pins.start = false ∧ unpinned.pins.stop = false ∧
    3 ≤ (rested .on (List.replicate 3 { quiet with pulses := 1 })).world.script.length ∧ 1 ≤ cfg1.numStop ∧
    (∀ turn ∈ (List.replicate 3 { quiet with pulses := 1 }).take 3, turn.pulses = 1) ∧
    ∀ turn ∈ (List.replicate 3 quiet).take 3, turn.pulses = 0 := by decide

theorem witness_ClearStatusBothForms : (rested .on [quiet, quiet]).Accessible ∧
    (rested .on [quiet, quiet]).turn.noise = .clean ∧
    ({ rested .on [quiet, quiet] with world := (rested .on [quiet, quiet]).around.pointerless } : State).turn.noise =
      .clean := by decide +kernel

theorem witness_ComputeTofsIsExact :
    let x := results 1050 16 525 40 1050 2100 21000
    let s := computed 2 1 10 x
    s.Accepting ∧ s.pstate = .configured ∧ s.cfg = some { cfg1 with measMode := 2, avgCycles := 1, calPeriods := 10 } ∧
    s.calPeriods = some 10 ∧ s.mirror24 = x.map (fun v => ⟨some v, false⟩) ∧ s.mirror8.config1 = ⟨some 0x02, false⟩ ∧
    s.mirror8.config2 = ⟨some 0x00, false⟩ ∧ measModeCode bench.layout 0x02 = 1#2 ∧
    2 ^ (avgCode bench.layout 0x00).toNat = 1 ∧ x.calibration2 ≠ x.calibration1 := by decide +kernel

theorem witness_ZeroGuardReportsNoCalibration :
    let x := results 500 0 0 0 0 0xFFFFFF 0xFFFFFF
    let s := computed 1 4 10 x
    s.Accepting ∧ s.pstate = .configured ∧ s.cfg = some { cfg1 with measMode := 1, avgCycles := 4, calPeriods := 10 } ∧
    s.calPeriods = some 10 ∧ s.mirror24 = x.map (fun v => ⟨some v, false⟩) ∧ s.mirror8.config1 = ⟨some 0x00, false⟩ ∧
    s.mirror8.config2 = ⟨some 0x10, false⟩ ∧ measModeCode bench.layout 0x00 = 0#2 ∧
    2 ^ (avgCode bench.layout 0x10).toNat = 4 ∧ x.calibration2 = x.calibration1 := by decide +kernel

/-- The MEASURE of ZeroGuardReportsNoCalibration, up to its bulk read. -/
theorem witness_measure_uncalibrated :
    (configured turnsUncalibrated).MeasureReady cfg1 0x00 40 ∧ (configured turnsUncalibrated).TrigIdle cfg1 ∧
    (configured turnsUncalibrated).TriggerSeen cfg1 0x00 ∧ (configured turnsUncalibrated).InterruptSeen cfg1 0x00 ∧
    ((configured turnsUncalibrated).completed cfg1 0x00).turn.noise = .clean ∧
    ((configured turnsUncalibrated).completed cfg1 0x00).around.target.busy = false ∧
    ((configured turnsUncalibrated).completed cfg1 0x00).around.target.r24.calibration2 =
      ((configured turnsUncalibrated).completed cfg1 0x00).around.target.r24.calibration1 :=
  ⟨configured_ready _, fun _ => by decide +kernel, fun _ => by decide +kernel, fun _ => by decide +kernel,
   by decide +kernel, by decide +kernel, by decide +kernel⟩

/-- A completing run, and each ground for a refusal: `cfg` unset, a slot absent or stale, codes that disagree. -/
theorem witness_ComputeTofsNeedsLiveMirror :
    let s := computed 1 1 40 (results 500 0 0 0 0 100 3900)
    leads (exec .computeTofs s) (fun t => t.result == .pulses 1) ∧ (rested .on []).cfg = none ∧ s.cfg.isSome ∧
    s.markStale.mirror24.calibration1.stale = true ∧ s.markStale.mirror8.config1.stale = true ∧
    s.markStale.mirror8.config2.stale = true ∧ (rested .on []).mirror8.config1.value = none ∧
    (rested .on []).mirror8.config2.value = none ∧ ((rested .on []).mirror24.get .time1).value = none ∧
    s.mirror8.config1.value = some 0x00 ∧ (measModeCode defaultLayout 0x00).toNat ≠ 1 ∧
    s.mirror8.config2.value = some 0x00 ∧ 2 ^ (avgCode defaultLayout 0x00).toNat ≠ 2 ∧
    ((rested .on []).mirror8.get .stopMaskL).value = none := by decide +kernel

/-- Outcomes at the ends of the code range, and a delivery with two slots present, the others absent, in both number
systems. -/
theorem witness_HistogramSumsToBatch : MeasOutcome.code (.success 5) = 5 ∧ (5 : Nat) ≤ 5 ∧
    MeasOutcome.code .triggerPolarity = 10 ∧
    ∀ f ∈ [NumberSystem.exact, .binary64 .nearestEven],
      leads (exec .computeTofs { computed 2 1 10 (results 1050 16 525 40 1000 2100 21000) with
        params := { bench with float := f }, outcome := some (.success 2) })
        (fun t => t.deliverySound && t.decayInterval.isSome && t.params.float == f && t.tof.numbers.drop 2 == [0, 0, 0]) :=
  by decide +kernel

/-- A target with an interrupt, with a lost one, and a wedged one. -/
theorem witness_InterruptLevelFollowsStatus :
    let w := (withTarget (fun t => { t with intSilent := false }) (withStatus 0x01 (rested .on []))).world
    w.target.wedged = false ∧ w.target.intSilent = false ∧ w.level bench .int1 = bench.intActive ∧
    (Target.inReset bench).wedged = false ∧ (Target.inReset bench).intSilent = true ∧
    ({ w.target with wedged := true }).wedged = true := by
  decide +kernel

/-- A started target of one stop and one cycle in mode 1, with the clock counter below and above its stop mask of 5 and
at its overflow of 10, and the coarse counter below its limit, at it, and past it; the same in mode 2, with INT_MASK
enabling the coarse overflow and not, armed, ending with all its stops and by an overflow, wedged. -/
theorem witness_TargetMeasurementCycle :
    let t : Target := { Target.inReset bench with
      phase := .started
      r8 := ⟨0x01, 0x00, 0, 0x07, 0xFF, 0xFF, 0, 10, 0, 5⟩ }
    t.phase = .started ∧ t.clockCount bench (4 / 12000000) < t.stopMask.toNat ∧
    t.stopMask.toNat < t.clockCount bench (6 / 12000000) ∧ t.numStop defaultLayout ≤ t.captured + 1 ∧
    t.avgCycles defaultLayout = 1 ∧ t.clockOvf.toNat ≤ t.clockCount bench (10 / 12000000) ∧
    forceCalBit defaultLayout t.r8.config1 = false ∧ t.disturbed = false ∧
    measModeCode defaultLayout t.r8.config1 = 0#2 ∧ measModeCode defaultLayout 0x03 = 1#2 ∧
    t.coarse + 65534 < max 1 t.coarseOvf.toNat ∧ max 1 t.coarseOvf.toNat ≤ t.coarse + 65535 ∧ t.wedged = false ∧
    max 1 ({ t with coarse := 65535 }).coarseOvf.toNat ≤ ({ t with coarse := 65535 }).coarse ∧
    t.r8.intMask.getLsbD defaultLayout.coarseOvfMask.val = true ∧
    ({ t with r8 := { t.r8 with intMask := 0x05 } }).r8.intMask.getLsbD defaultLayout.coarseOvfMask.val = false ∧
    t.clockCount bench (9 / 12000000) < t.clockOvf.toNat ∧
    t.captured + 1 < ({ t with r8 := { t.r8 with config2 := 0x04 } }).numStop defaultLayout ∧
    (t.beginEnd 0x11 false).phase = .ending ∧ (t.beginEnd 0x11 false).overrun = false ∧
    (t.beginEnd 0x04 true).overrun = true ∧ ({ t with phase := .armed }).phase = .armed ∧
    ({ t with wedged := true }).wedged = true := by decide +kernel

end Sys2Proof.Tests
end

section
/-! PROOFS of the statements about the scope (spec/00_scope.md R3): what one step runs, said once per case of the queue
and of a pending operation, and what a turn of the environment leaves alone. -/

namespace Sys2Proof.Machine

/-- A request that decodes is run on the state without it (R147). -/
theorem step_of_decode_ok {s : State} {r : Request} {rest : List Request} {i : Instr} (idle : s.pending = none)
    (queued : s.requests = r :: rest) (decoded : decode r = .ok i) : step s = exec i { s with requests := rest } := by
  simp only [step, idle, State.fetch, queued, decoded]

/-- A request that decodes to nothing is refused (R150). -/
theorem step_of_decode_error {s : State} {r : Request} {rest : List Request} {e : DecodeError} (idle : s.pending = none)
    (queued : s.requests = r :: rest) (undecoded : decode r = .error e) : step s = .refused (.undecodable e) := by
  simp only [step, idle, State.fetch, queued, undecoded]

/-- A turn between operations moves only the world outside the controller (R3). -/
theorem State.idleTurn_eq (s : State) : s.idleTurn = { s with world := s.around } := rfl

/-- With nothing to run the environment takes a turn (R3). -/
theorem step_of_no_request {s : State} (idle : s.pending = none) (empty : s.requests = []) :
    step s = .next { s with world := s.around } := by
  simp only [step, idle, State.fetch, empty, State.idleTurn_eq]

/-- An operation that goes on is resumed, whatever the queue holds (R200). -/
theorem step_of_pending {s : State} {op : WriteOp} {writes : List VerifiedWrite} (h : s.pending = some ⟨op, writes⟩) :
    step s = ({ s with pending := none, result := .nothing, log := [] }.finishWrites op writes).outcome := by
  simp only [step, h, State.resume, State.begin]

/-- Writes that all matched are followed by the rest of the operation (R202). -/
theorem State.finishWrites_of_going {s u : State} {op : WriteOp} {writes : List VerifiedWrite}
    (h : State.writeAll op writes s = .going u) : s.finishWrites op writes = .going (u.afterWrites op) := by
  rw [State.finishWrites, h, Run.andThen]

/-- Writes that gave up, or go on in the next step, end the operation's part of this one (R200). -/
theorem State.finishWrites_of_ended {s u : State} {op : WriteOp} {writes : List VerifiedWrite}
    (h : State.writeAll op writes s = .ended u) : s.finishWrites op writes = .ended u := by
  rw [State.finishWrites, h, Run.andThen]

/-- Settles O59: an environment's turn follows the world it starts from, and a target that follows only drifts. -/
theorem environmentTurnOnlyDrifts : Obligations.EnvironmentTurnOnlyDrifts := by
  intro p ceil turn w
  have follows : w.Follows p (w.play p ceil turn) := w.play_follows p ceil turn
  exact ⟨follows.lines, follows.time, follows.target.keeps, follows.target.config1⟩

/-- Settles O5: by the head of the queue when no operation goes on, else by what its verified writes end in. -/
theorem stepRunsDecodedInstruction : Obligations.StepRunsDecodedInstruction := by
  intro s
  refine ⟨fun idle => ⟨fun _ _ _ => step_of_decode_ok idle, fun _ _ _ => step_of_decode_error idle,
    step_of_no_request idle⟩, fun op writes goesOn => ⟨fun u matched => ?_, fun u ended => ?_, ?_⟩⟩
  · rw [step_of_pending goesOn, State.finishWrites_of_going matched, Run.outcome]
  · rw [step_of_pending goesOn, State.finishWrites_of_ended ended, Run.outcome]
  · exact State.writeAll_ends op writes _

end Sys2Proof.Machine
end

section
/-! PROOFS: the layer that the statements about every step share. What an instruction that answers a next state did is
said once (`Effect`), over what MEASURE's steps may do (`Onward`), what verified writes end in (`WritesEnd`), what a
recovery leaves (`Recovers`) and how MEASURE returns (`Answered`). -/

namespace Sys2Proof.Machine

/-! ## What MEASURE's steps may do -/

/-- From `s` to `t` only transfers, waits, drives of lines other than ENABLE, and moves of `mstate` happened: the mirror
stayed coherent and lost no value. -/
structure Onward (s t : State) : Prop where
  frame    : t = { s with
    world := t.world, mirror8 := t.mirror8, mirror16 := t.mirror16, mirror24 := t.mirror24
    mstate := t.mstate, result := t.result, log := t.log }
  enable   : t.world.lines.enable = s.world.lines.enable
  pointer  : s.world.target.ap = none → t.world.target.ap = none
  coherent : s.mirrorCoherent = true → t.mirrorCoherent = true
  present  : ∀ r, (s.mirror8.get r).value.isSome = true → (t.mirror8.get r).value.isSome = true

theorem BusOnly.onward {s t : State} (h : BusOnly s t) : Onward s t := by
  refine ⟨?_, by rw [h.lines], h.ap, h.coherent, h.present⟩
  have f := h.frame
  rw [f]

theorem Onward.refl (s : State) : Onward s s := (BusOnly.refl s).onward

theorem Onward.trans {a b c : State} (h : Onward a b) (k : Onward b c) : Onward a c := by
  refine ⟨?_, k.enable.trans h.enable, k.pointer ∘ h.pointer, k.coherent ∘ h.coherent,
    fun r hr => k.present r (h.present r hr)⟩
  have hk := k.frame
  rw [h.frame] at hk
  exact hk

theorem Onward.ex {s t : State} (h : Onward s t) : ∃ w m8 m16 m24 m r l, t = { s with
    world := w, mirror8 := m8, mirror16 := m16, mirror24 := m24, mstate := m, result := r, log := l } :=
  ⟨_, _, _, _, _, _, _, h.frame⟩

theorem Onward.moveTo (s : State) (m : MState) : Onward s (s.moveTo m) := ⟨rfl, rfl, id, id, fun _ => id⟩

/-- What follows the world is such a change. -/
theorem Onward.of_follows {s : State} {w : World} (f : s.world.Follows s.params w) : Onward s { s with world := w } :=
  ⟨rfl, by rw [f.lines], fun h => f.target.pointer.trans h, id, fun _ => id⟩

theorem Onward.delay (s : State) (d : Rat) : Onward s (s.delay d) := .of_follows (World.delay_follows ..)

theorem Onward.waitLine (s : State) (role : PinRole) (level : Bool) (d : Rat) : Onward s (s.waitLine role level d).2 :=
  .of_follows (World.waitLine_follows ..)

theorem BusOnly.warnUnassigned (s : State) (role : PinRole) : BusOnly s (s.warnUnassigned role) := by
  unfold State.warnUnassigned
  split
  · exact .refl s
  · exact .warnAll ..

theorem Onward.driveLine (s : State) (role : PinRole) (l : Bool) (h : role ≠ .enable) :
    Onward s (s.driveLine role l) := by
  have g := s.driveLine_goes role l h
  have p := (s.driveLine_onward role l).2.1
  rw [State.driveLine_eq]
  exact ⟨rfl, g.enable, p, id, fun _ => id⟩

theorem Onward.pulse (s : State) (role : PinRole) (active : Bool) (h : role ≠ .enable) :
    Onward s (s.pulse role active) :=
  (Onward.driveLine s role active h).trans (.driveLine _ role _ h)

theorem Onward.stopPulses (active : Bool) (k : Nat) (s : State) : Onward s (State.stopPulses active k s) := by
  induction k generalizing s with
  | zero => exact .refl s
  | succ k ih => exact ((BusOnly.nextTurn s).onward.trans (.pulse _ .stop active (by decide))).trans (ih _)

/-- SIM_PULSES drives START and STOP only (R245). -/
theorem Onward.simPulses (c : Cfg) (s : State) : Onward s (s.simPulses c) := by
  have start : Onward s ((s.warnUnassigned .start).pulse .start (startActive c)) :=
    (BusOnly.warnUnassigned s .start).onward.trans (.pulse _ .start _ (by decide))
  exact ((start.trans (BusOnly.warnUnassigned _ .stop).onward).trans (BusOnly.nextTurn _).onward).trans
    (.stopPulses ..)

theorem BusOnly.readRegs8 (s : State) : BusOnly s s.readRegs8 := (BusOnly.rdAll8 s).trans (.learnAll8 ..)

theorem BusOnly.readRegs24 (s : State) : BusOnly s s.readRegs24 := (BusOnly.rdAll24 s).trans (.learnAll24 ..)

theorem BusOnly.regRead (s : State) (name : RegName) : BusOnly s (s.regRead name) := by
  cases name with
  | byte r => exact ((BusOnly.rd8 s r).trans (.learn8 ..)).trans (.yields ..)
  | pair p => exact ((BusOnly.rd16 s p).trans (.learn16 ..)).trans (.yields ..)
  | result r => exact ((BusOnly.rd24 s r).trans (.learn24 ..)).trans (.yields ..)

theorem BusOnly.learnWritten (s : State) (r : Reg8) (v : Byte) : BusOnly s (s.learnWritten r v) := by
  unfold State.learnWritten
  split
  · exact .refl s
  · split <;> exact .learn8 ..

theorem BusOnly.regWrite (s : State) (name : RegName) (value : Nat) : BusOnly s (s.regWrite name value) := by
  cases name with
  | byte r => exact (BusOnly.wr8 s r _).trans (.learnWritten ..)
  | pair p => exact (BusOnly.wr16 s p _).trans (.learn16 ..)
  | result r => exact .refl s

theorem BusOnly.clearStatus (s : State) (force : Bool) : BusOnly s (s.clearStatus force) := by
  have read : BusOnly s ((s.busRd8 .intStatus).2.learn8 .intStatus (s.busRd8 .intStatus).1) :=
    (BusOnly.rd8 s .intStatus).trans (.learn8 ..)
  unfold State.clearStatus
  split
  · exact .wr8 ..
  · dsimp only
    split
    · exact read
    · exact read.trans (.wr8 ..)

/-! ## What verified writes end in, and what a recovery leaves -/

/-- What the verified writes `ws` of operation `op`, begun in `u`, leave at the end of the step: all matched and the
operation's last part was done, one gave up, or they go on in the next step (R198 to R202). -/
inductive WritesEnd (op : WriteOp) (ws : List VerifiedWrite) (u t : State) : Prop
  | verified (x : State) (bus : BusOnly u x) (covered : Covered ws x) (last : t = x.afterWrites op)
  | failed (gaveUp : WriteFailed u t)
  | goesOn (more : WriteGoesOn op ws u t)

theorem State.finishWrites_writesEnd (op : WriteOp) (ws : List VerifiedWrite) (u : State) :
    (u.finishWrites op ws).Gives (WritesEnd op ws u) (WritesEnd op ws u) :=
  (u.finishWrites_gives op ws).mono (fun _ ⟨x, bus, covered, last⟩ => .verified x bus covered last)
    fun _ h => h.elim .failed .goesOn

/-- The mirror's configuration was written again: what the writes it gave ended in (R212). -/
def Rewrites (op : WriteOp) (u t : State) : Prop := ∃ ws, u.retained = some ws ∧ WritesEnd op ws u t

theorem State.rewrite_rewrites (op : WriteOp) (u : State) :
    (u.rewrite op).Gives (Rewrites op u) (Rewrites op u) := by
  unfold State.rewrite
  split
  · rename_i ws retained
    exact (u.finishWrites_writesEnd op ws).mono (fun _ h => ⟨ws, retained, h⟩) fun _ h => ⟨ws, retained, h⟩
  · trivial

/-- The power cycle with the configuration written again, begun after transfers only (R232, R257). -/
def Recovers (op : WriteOp) (s t : State) : Prop :=
  ∃ u, BusOnly s u ∧ u.retainRefusal = none ∧ Rewrites op u.powerDown.powerUp t

theorem State.retainRefusal_none {s : State} :
    s.retainRefusal = none ↔ s.cfg.isSome = true ∧ s.retained.isSome = true := by
  simp [State.retainRefusal, firstRefusal_none, Option.isSome_iff_ne_none]

/-! ## How MEASURE returns -/

/-- The outcome is a pulse count of at most 5 or an error (R53). -/
def MeasOutcome.Legal (o : MeasOutcome) : Prop := ∀ n, o = .success n → n ≤ 5

/-- The result latches are untouched or those of a COMPUTE_TOFS (R280). -/
def MayCompute (u v : State) : Prop := v = u ∨ ∃ c periods, v = (u.computeTofs c periods).2

/-- MEASURE returned an outcome: after its steps, the results converted if they were read (R250, R326, R330). -/
def Answered (s t : State) : Prop :=
  ∃ u v w o, Onward s u ∧ MayCompute u v ∧ Onward v w ∧ o.Legal ∧ t = w.finish o

/-- An error taken before the results are converted is such a return. -/
theorem Answered.error {s u : State} (h : Onward s u) (terminal : MState) (o : MeasOutcome)
    (legal : o.Legal) : Answered s (u.raiseMeasurement terminal o) :=
  ⟨u, u, _, o, h, .inl rfl, (Onward.moveTo u terminal).trans (BusOnly.note _ _).onward, legal, rfl⟩

theorem Tofs.count_le (t : Tofs) : t.count ≤ 5 := List.countP_le_length

/-- The pulse count a COMPUTE_TOFS answers is at most 5 (R291). -/
theorem State.computeTofs_counted {s v : State} {c : Cfg} {periods n : Nat}
    (h : s.computeTofs c periods = (.counted n, v)) : n ≤ 5 := by
  unfold State.computeTofs at h
  split at h
  · cases h
    exact Tofs.count_le _
  · cases h

theorem triggerTimeout_legal (c : Cfg) : (triggerTimeout c).Legal := by
  unfold triggerTimeout
  split <;> exact nofun

theorem State.checkPolarity_gives (c : Cfg) (s : State) :
    (s.checkPolarity c).Gives (Onward s) (Recovers .measure s) := by
  have turn := BusOnly.nextTurn s
  unfold State.checkPolarity
  split
  · dsimp only
    split
    · exact turn.onward
    · split
      · trivial
      · rename_i may
        have again : (s.nextTurn.2.recover .measure).Gives (Recovers .measure s) (Recovers .measure s) :=
          (State.rewrite_rewrites .measure _).mono (fun _ h => ⟨_, turn, may, h⟩) fun _ h => ⟨_, turn, may, h⟩
        exact again.andThen fun _ h => h
  · exact (BusOnly.warnUnassigned s .trig1).onward

theorem State.arm_gives (config1 : Byte) (s : State) : (s.arm config1).Gives (Onward s) (Answered s) :=
  (BusOnly.wr8 s .config1 _).onward.trans (.moveTo ..)

theorem State.awaitTrigger_gives (c : Cfg) (s : State) : (s.awaitTrigger c).Gives (Onward s) (Answered s) := by
  have wait := Onward.waitLine s .trig1 (trigActive c) s.params.tTrigDeadline
  unfold State.awaitTrigger
  split
  · split
    · rename_i u e
      rw [e] at wait
      exact wait.trans (.moveTo ..)
    · rename_i u e
      rw [e] at wait
      exact .error wait .timedOut _ (triggerTimeout_legal c)
  · exact .moveTo ..

theorem State.supplyPulses_gives (c : Cfg) (s : State) : (s.supplyPulses c).Gives (Onward s) (Answered s) := by
  refine Onward.trans (?_ : Onward s (if s.params.simulate then s.simPulses c else s)) (.moveTo ..)
  split
  · exact .simPulses c s
  · exact .refl s

theorem State.awaitInterrupt_gives (c : Cfg) (s : State) : (s.awaitInterrupt c).Gives (Onward s) (Answered s) := by
  have wait := Onward.waitLine s .int1 s.params.intActive (interruptDeadline s.params c)
  unfold State.awaitInterrupt
  split
  · split
    · rename_i u e
      rw [e] at wait
      exact wait
    · rename_i u e
      rw [e] at wait
      exact .error wait .timedOut _ nofun
  · exact (BusOnly.warnUnassigned s .int1).onward.trans (.delay ..)

theorem State.readAndConvert_gives (c : Cfg) (s : State) : (s.readAndConvert c).Gives (Answered s) (Answered s) := by
  have read := (BusOnly.readRegs24 s).onward
  unfold State.readAndConvert
  dsimp only
  split
  · trivial
  · split
    · rename_i n v e
      refine ⟨_, v, _, .success n, read, .inr ⟨c, _, by rw [e]⟩, .moveTo v (.success n), fun k hk => ?_, rfl⟩
      cases hk
      exact State.computeTofs_counted e
    · rename_i v e
      exact ⟨_, v, _, .noCalibration, read, .inr ⟨c, _, by rw [e]⟩,
        (Onward.moveTo v .protocolError).trans (BusOnly.note _ _).onward, nofun, rfl⟩

theorem Answered.after {a b t : State} (h : Onward a b) : Answered b t → Answered a t :=
  fun ⟨u, v, w, o, hu, rest⟩ => ⟨u, v, w, o, h.trans hu, rest⟩

/-- One more step of MEASURE: the run so far goes on from `s`, or ended in one of MEASURE's ends. -/
theorem Run.Gives.measureStep {s : State} {r : Run} {next : State → Run} {P : State → State → Prop}
    (h : r.Gives (Onward s) fun t => Answered s t ∨ Recovers .measure s t)
    (after : ∀ {a b t}, Onward a b → P b t → P a t) (k : ∀ u, (next u).Gives (P u) (Answered u)) :
    (r.andThen next).Gives (P s) fun t => Answered s t ∨ Recovers .measure s t :=
  h.andThen fun u hu => (k u).mono (fun _ ht => after hu ht) fun _ ht => .inl (.after hu ht)

/-- MEASURE returns an outcome, or ends in the recovery of its first step (R230). -/
theorem State.measure_gives (c : Cfg) (config1 : Byte) (s : State) :
    (s.measure c config1).Gives (Answered s) fun t => Answered s t ∨ Recovers .measure s t := by
  have polarity : (s.checkPolarity c).Gives (Onward s) fun t => Answered s t ∨ Recovers .measure s t :=
    (s.checkPolarity_gives c).mono (fun _ => id) fun _ => .inr
  exact ((((polarity.measureStep .trans (State.arm_gives config1)).measureStep .trans
    (State.awaitTrigger_gives c)).measureStep .trans (State.supplyPulses_gives c)).measureStep .trans
    (State.awaitInterrupt_gives c)).measureStep .after (State.readAndConvert_gives c)

/-! ## What an instruction that answers a next state did -/

theorem State.openRefusal_none {s : State} : s.openRefusal = none ↔
    s.pending = none ∧ s.fatal = none ∧ s.busOpen = false ∧ s.mstate = .idle := by
  unfold State.openRefusal
  cases s.pending <;> cases s.fatal <;> cases s.busOpen <;> cases s.mstate <;> simp

/-- What CLEANUP leaves (R214). -/
def State.cleanedUp (s : State) : State :=
  { ((s.powerDown.driveOrWarn .oscEnable false).driveLine .start false).driveLine .stop false with busOpen := false }

/-- The state CONFIGURE's writes start from: `cfg` replaced, its warnings logged (R202). -/
def State.withRequest (s : State) (q : ConfigRequest) : State :=
  ({ s with cfg := some (normalise s.params q).1 } : State).warnAll (normalise s.params q).2

/-- What an instruction did that met its precondition in `s` and answered the next state `t`. -/
inductive Effect (s : State) : Instr → State → Prop
  | accessed {i : Instr} {t : State} (other : ∀ q, i ≠ .configure q) (ready : s.Accessible) (bus : BusOnly s t) :
      Effect s i t
  | opened (ready : s.openRefusal = none) :
      Effect s .openBus ({ s.begin.nextTurn.2 with busOpen := true } : State).driveOutputsLow
  | openFailed (ready : s.openRefusal = none) : Effect s .openBus (s.begin.nextTurn.2.raiseFatal .busUnavailable)
  | clocked {requested : Rat} {force : Bool} (ready : s.Accepting) (speed : Option Rat) (y : Yield)
      (l : List Observation) :
      Effect s (.setClockSpeed requested force) { s with busSpeed := speed, result := y, log := l }
  | poweredDown (ready : s.Accepting) : Effect s .powerOff s.begin.powerDown
  | poweredUp (ready : s.Accepting) (off : s.pstate = .off) : Effect s .powerOn s.begin.powerUp
  | cleanedUp (ready : s.Accepting) : Effect s .cleanup s.begin.cleanedUp
  | configured {q : ConfigRequest} {t : State} (ready : s.Accessible) (mask : stopMaskRefused q = false)
      (ends : WritesEnd .configure (configureWrites s.params (normalise s.params q).1) (s.begin.withRequest q) t) :
      Effect s (.configure q) t
  | rewritten {t : State} (ready : s.Accessible) (may : s.retainRefusal = none)
      (ends : Rewrites .configureRetain s.begin t) : Effect s .configureRetain t
  | recovered {i : Instr} {op : WriteOp} {t : State} (other : ∀ q, i ≠ .configure q) (ready : s.Accessible)
      (notConfigure : op ≠ .configure) (ends : Recovers op s t) : Effect s i t
  | answered {t : State} (ready : s.Accessible) (returned : Answered s t) : Effect s .measure t
  | computed {t : State} (ready : s.Accessible) (c : Cfg) (periods : Nat)
      (returned : BusOnly (s.begin.computeTofs c periods).2 t) : Effect s .computeTofs t

/-- An access operation whose body only transfers and learns does no more than that. -/
theorem Effect.of_access {s t : State} {i : Instr} {refusal : Option Refusal} {body : State → Run}
    (h : s.attempt refusal body = .next t) (ready : refusal = none → s.Accessible) (other : ∀ q, i ≠ .configure q)
    (bus : ∀ u, (body u).Gives (BusOnly u) (BusOnly u)) : Effect s i t := by
  obtain ⟨met, e⟩ := State.attempt_next h
  exact .accessed other (ready met) ((BusOnly.begin s).trans (or_self_iff.mp ((bus _).outcome e)))

/-- A read that yields what it read, learning nothing, is such an operation. -/
theorem Effect.of_read {s t : State} {i : Instr} {α : Type} {read : State → α × State} {body : α × State → Run}
    (h : s.attempt s.accessRefusal (fun u => body (read u)) = .next t) (other : ∀ q, i ≠ .configure q)
    (bus : ∀ u, BusOnly u (read u).2) (yields : ∀ x, (body x).Gives (BusOnly x.2) (BusOnly x.2)) : Effect s i t :=
  .of_access h State.accessRefusal_none.mp other fun u =>
    (yields (read u)).mono (fun _ => (bus u).trans) fun _ => (bus u).trans

theorem firstRefusal_cons_none {x : Option Refusal} {l : List (Option Refusal)} :
    firstRefusal (x :: l) = none ↔ x = none ∧ firstRefusal l = none := by
  simp [firstRefusal_none]

/-- An operation of a configured block: the block accepts it and the target runs (R190). -/
theorem accessible_of_configured {s : State} (h : s.commonRefusal = none)
    (k : refuseIf (s.pstate != .configured) .wrongPowerState = none) : s.Accessible :=
  ⟨State.commonRefusal_none.mp h, by simp at k; simp [k]⟩

theorem execMeasure_effect {s t : State} (h : execMeasure s = .next t) : Effect s .measure t := by
  obtain ⟨met, e⟩ := State.attempt_next h
  simp only [State.measureRefusal, firstRefusal_cons_none] at met
  obtain ⟨common, configured, -⟩ := met
  have ready := accessible_of_configured common configured
  split at e
  · rename_i c config1 _ _
    have began := BusOnly.begin s
    have recovered : Recovers .measure s.begin t → Effect s .measure t := fun ⟨u, bus, rest⟩ =>
      .recovered (fun _ => nofun) ready (by decide) ⟨u, began.trans bus, rest⟩
    have answered : Answered s.begin t → Effect s .measure t := fun a => .answered ready (.after began.onward a)
    exact ((s.begin.measure_gives c config1).outcome e).elim answered (Or.elim · answered recovered)
  · cases e
  · cases e

theorem execComputeTofs_effect {s t : State} (h : execComputeTofs s = .next t) : Effect s .computeTofs t := by
  obtain ⟨met, e⟩ := State.attempt_next h
  simp only [firstRefusal_cons_none] at met
  obtain ⟨common, configured, -⟩ := met
  have ready := accessible_of_configured common configured
  unfold State.hostComputeTofs at e
  split at e
  · rename_i c periods _ _
    split at e
    · rename_i n u k
      cases e
      refine .computed ready c periods ?_
      rw [k]
      exact .yields ..
    · rename_i u k
      cases e
      refine .computed ready c periods ?_
      rw [k]
      exact (BusOnly.note ..).trans (.yields ..)
  · cases e

theorem execOpen_effect {s t : State} (h : execOpen s = .next t) : Effect s .openBus t := by
  obtain ⟨ready, e⟩ := State.attempt_next h
  dsimp only at e
  split at e
  · cases e
    exact .opened ready
  · cases e
    exact .openFailed ready

theorem execConfigure_effect {q : ConfigRequest} {s t : State} (h : execConfigure q s = .next t) :
    Effect s (.configure q) t := by
  obtain ⟨met, e⟩ := State.attempt_next h
  simp only [firstRefusal_cons_none, refuseIf_none] at met
  obtain ⟨access, mask, -⟩ := met
  have ends := ((s.begin.withRequest q).finishWrites_writesEnd .configure
    (configureWrites s.params (normalise s.params q).1)).outcome e
  exact .configured (State.accessRefusal_none.mp access) mask (or_self_iff.mp ends)

theorem execConfigureRetain_effect {s t : State} (h : execConfigureRetain s = .next t) :
    Effect s .configureRetain t := by
  obtain ⟨met, e⟩ := State.attempt_next h
  simp only [firstRefusal_cons_none] at met
  obtain ⟨access, may, -⟩ := met
  exact .rewritten (State.accessRefusal_none.mp access) may
    (or_self_iff.mp ((State.rewrite_rewrites .configureRetain s.begin).outcome e))

theorem execHardRecover_effect {s t : State} (h : execHardRecover s = .next t) : Effect s .hardRecover t := by
  obtain ⟨met, e⟩ := State.attempt_next h
  simp only [firstRefusal_cons_none] at met
  obtain ⟨common, configured, may, -⟩ := met
  have ends := (State.rewrite_rewrites .hardRecover s.begin.powerDown.powerUp).outcome e
  exact .recovered (fun _ => nofun) (accessible_of_configured common configured)
    (by decide : WriteOp.hardRecover ≠ .configure)
    ⟨s.begin, .begin s, may, or_self_iff.mp ends⟩

theorem execSetClockSpeed_effect {requested : Rat} {force : Bool} {s t : State}
    (h : execSetClockSpeed requested force s = .next t) : Effect s (.setClockSpeed requested force) t := by
  obtain ⟨met, e⟩ := State.attempt_next h
  simp only [firstRefusal_cons_none] at met
  cases e
  exact .clocked (State.commonRefusal_none.mp met.1) ..

theorem execOn_effect {s t : State} (h : execOn s = .next t) : Effect s .powerOn t := by
  obtain ⟨met, e⟩ := State.attempt_next h
  simp only [firstRefusal_cons_none, refuseIf_none, bne_eq_false_iff_eq] at met
  cases e
  exact .poweredUp (State.commonRefusal_none.mp met.1) met.2.1

/-- Every instruction that answers a next state did one of these. -/
theorem exec_effect {i : Instr} {s t : State} (h : exec i s = .next t) : Effect s i t := by
  have access : s.accessRefusal = none → s.Accessible := State.accessRefusal_none.mp
  cases i with
  | rd8 r =>
    exact .of_read (read := fun u => u.busRd8 r) (body := fun (v, u) => .going (u.yields (.byte v)))
      (show execRd8 r s = .next t from h) (fun _ => nofun) (fun u => .rd8 u r) fun _ => .yields ..
  | wr8 r v => exact .of_access (show execWr8 r v s = .next t from h) access (fun _ => nofun) fun u => .wr8 u r v
  | rd16 p =>
    exact .of_read (read := fun u => u.busRd16 p) (body := fun (v, u) => .going (u.yields (.half v)))
      (show execRd16 p s = .next t from h) (fun _ => nofun) (fun u => .rd16 u p) fun _ => .yields ..
  | wr16 p v => exact .of_access (show execWr16 p v s = .next t from h) access (fun _ => nofun) fun u => .wr16 u p v
  | rd24 r =>
    exact .of_read (read := fun u => u.busRd24 r) (body := fun (v, u) => .going (u.yields (.word v)))
      (show execRd24 r s = .next t from h) (fun _ => nofun) (fun u => .rd24 u r) fun _ => .yields ..
  | rdall8 =>
    exact .of_read (read := fun u => u.busRdAll8) (body := fun (v, u) => .going (u.yields (.block8 v)))
      (show execRdall8 s = .next t from h) (fun _ => nofun) (fun u => .rdAll8 u) fun _ => .yields ..
  | rdall24 =>
    exact .of_read (read := fun u => u.busRdAll24) (body := fun (v, u) => .going (u.yields (.block24 v)))
      (show execRdall24 s = .next t from h) (fun _ => nofun) (fun u => .rdAll24 u) fun _ => .yields ..
  | openBus => exact execOpen_effect h
  | setClockSpeed requested force => exact execSetClockSpeed_effect h
  | powerOff =>
    obtain ⟨ready, e⟩ := State.attempt_next (show execOff s = .next t from h)
    cases e
    exact .poweredDown (State.commonRefusal_none.mp ready)
  | powerOn => exact execOn_effect h
  | configure q => exact execConfigure_effect h
  | configureRetain => exact execConfigureRetain_effect h
  | measure => exact execMeasure_effect h
  | clearStatus force =>
    exact .of_access (show execClearStatus force s = .next t from h) access (fun _ => nofun)
      fun u => .clearStatus u force
  | readRegs8 => exact .of_access (show execReadRegs8 s = .next t from h) access (fun _ => nofun) .readRegs8
  | readRegs24 => exact .of_access (show execReadRegs24 s = .next t from h) access (fun _ => nofun) .readRegs24
  | computeTofs => exact execComputeTofs_effect h
  | cleanup =>
    obtain ⟨ready, e⟩ := State.attempt_next (show execCleanup s = .next t from h)
    cases e
    exact .cleanedUp (State.commonRefusal_none.mp ready)
  | regRead name =>
    exact .of_access (show execRegRead name s = .next t from h) access (fun _ => nofun) fun u => .regRead u name
  | hardRecover => exact execHardRecover_effect h
  | regWrite name value =>
    exact .of_access (show execRegWrite name value s = .next t from h)
      (fun met => access (firstRefusal_cons_none.mp met).1) (fun _ => nofun) fun u => .regWrite u name value
  | reservedHopF => cases (State.attempt_next (show execReservedHopF s = .next t from h)).1

/-- What a step that answers a next state did: an operation went on, the environment took its turn, or the request
at the head of the queue was run (R3, R200). -/
inductive StepEffect (s t : State) : Prop
  | resumed (p : Pending) (goesOn : s.pending = some p)
      (ends : WritesEnd p.op p.writes ({ s with pending := none } : State).begin t)
  | turned (idle : s.pending = none) (next : t = { s with world := s.around })
  | ran (idle : s.pending = none) (i : Instr) (rest : List Request)
      (did : exec i { s with requests := rest } = .next t)

theorem step_effect {s t : State} (h : step s = .next t) : StepEffect s t := by
  cases p : s.pending with
  | some p' =>
    obtain ⟨op, ws⟩ := p'
    rw [step_of_pending p] at h
    exact .resumed _ p (or_self_iff.mp ((State.finishWrites_writesEnd op ws _).outcome h))
  | none =>
    cases queue : s.requests with
    | nil =>
      rw [step_of_no_request p queue] at h
      cases h
      exact .turned p rfl
    | cons r rest =>
      cases d : decode r with
      | ok i =>
        rw [step_of_decode_ok p queue d] at h
        exact .ran p i rest h
      | error e =>
        rw [step_of_decode_error p queue d] at h
        cases h

end Sys2Proof.Machine
end

section
/-! PROOFS of the statements about `cfg` and the fatal latch: each is read off what an instruction did (spec/10_state.md
R46, R54; spec/41_power_config.md R202). -/

namespace Sys2Proof.Machine

/-! ## `cfg` (R46) -/

theorem BusOnly.cfg {s t : State} (h : BusOnly s t) : t.cfg = s.cfg := by rw [h.frame]

theorem Onward.cfg {s t : State} (h : Onward s t) : t.cfg = s.cfg := by rw [h.frame]

theorem State.driveLine_cfg (s : State) (role : PinRole) (l : Bool) : (s.driveLine role l).cfg = s.cfg := by
  rw [State.driveLine_eq]

theorem State.driveOrWarn_cfg (s : State) (role : PinRole) (l : Bool) : (s.driveOrWarn role l).cfg = s.cfg := by
  rw [State.driveOrWarn_eq]

theorem State.powerDown_cfg (s : State) : s.powerDown.cfg = s.cfg := by rw [State.powerDown_eq]

theorem State.powerUp_cfg (s : State) : s.powerUp.cfg = s.cfg := by rw [State.powerUp_eq]

theorem State.raiseFatal_cfg (s : State) (e : FatalError) : (s.raiseFatal e).cfg = s.cfg := by
  unfold State.raiseFatal
  dsimp only
  split
  · exact State.powerDown_cfg _
  · rfl

theorem State.computeTofs_cfg (s : State) (c : Cfg) (periods : Nat) : (s.computeTofs c periods).2.cfg = s.cfg := by
  unfold State.computeTofs
  split <;> rfl

theorem MayCompute.cfg {u v : State} (h : MayCompute u v) : v.cfg = u.cfg := by
  obtain rfl | ⟨c, periods, rfl⟩ := h
  · rfl
  · exact u.computeTofs_cfg c periods

theorem Answered.cfg {s t : State} (h : Answered s t) : t.cfg = s.cfg := by
  obtain ⟨u, v, w, o, steps, computes, returns, -, rfl⟩ := h
  exact returns.cfg.trans (computes.cfg.trans steps.cfg)

theorem WritesEnd.cfg {op : WriteOp} {ws : List VerifiedWrite} {u t : State} (h : WritesEnd op ws u t) :
    t.cfg = u.cfg := by
  cases h with
  | verified x bus _ last =>
    rw [last, State.afterWrites_eq]
    exact bus.cfg
  | failed gaveUp =>
    obtain ⟨x, a, v, bus, -, rfl⟩ := gaveUp
    exact (State.raiseFatal_cfg _ _).trans bus.cfg
  | goesOn more =>
    obtain ⟨x, rest, bus, -, -, rfl, -⟩ := more
    exact bus.cfg

theorem Rewrites.cfg {op : WriteOp} {u t : State} (h : Rewrites op u t) : t.cfg = u.cfg := by
  obtain ⟨ws, -, ends⟩ := h
  exact ends.cfg

theorem Recovers.cfg {op : WriteOp} {s t : State} (h : Recovers op s t) : t.cfg = s.cfg := by
  obtain ⟨u, bus, -, ends⟩ := h
  exact ends.cfg.trans ((u.powerDown.powerUp_cfg.trans u.powerDown_cfg).trans bus.cfg)

/-- CONFIGURE replaces `cfg` whole, and no other instruction writes it (R46, R202). -/
theorem Effect.cfg {s t : State} {i : Instr} (h : Effect s i t) :
    ((∀ q, i ≠ .configure q) → t.cfg = s.cfg) ∧ ∀ q, i = .configure q → t.cfg = some (normalise s.params q).1 := by
  cases h with
  | configured _ _ ends =>
    refine ⟨fun other => absurd rfl (other _), fun q e => ?_⟩
    cases e
    exact ends.cfg
  | accessed other _ bus => exact ⟨fun _ => bus.cfg, fun q e => absurd e (other q)⟩
  | recovered other _ _ ends => exact ⟨fun _ => ends.cfg, fun q e => absurd e (other q)⟩
  | opened => exact ⟨fun _ => by simp [State.driveOutputsLow, State.driveLine_cfg], fun _ => nofun⟩
  | openFailed => exact ⟨fun _ => State.raiseFatal_cfg .., fun _ => nofun⟩
  | clocked => exact ⟨fun _ => rfl, fun _ => nofun⟩
  | poweredDown => exact ⟨fun _ => State.powerDown_cfg _, fun _ => nofun⟩
  | poweredUp => exact ⟨fun _ => State.powerUp_cfg _, fun _ => nofun⟩
  | cleanedUp =>
    refine ⟨fun _ => ?_, fun _ => nofun⟩
    simp [State.cleanedUp, State.driveLine_cfg, State.driveOrWarn_cfg, State.powerDown_cfg]
  | rewritten _ _ ends => exact ⟨fun _ => ends.cfg, fun _ => nofun⟩
  | answered _ returned => exact ⟨fun _ => returned.cfg, fun _ => nofun⟩
  | computed _ c periods returned =>
    exact ⟨fun _ => returned.cfg.trans (s.begin.computeTofs_cfg c periods), fun _ => nofun⟩

/-- Settles O12, from what each instruction did and from what a resumed operation's writes end in. -/
theorem cfgChangesOnlyInConfigure : Obligations.CfgChangesOnlyInConfigure := by
  refine ⟨fun i s t answers => (exec_effect answers).cfg, fun s t goesOn steps => ?_⟩
  cases step_effect steps with
  | resumed p _ ends => exact ends.cfg
  | turned idle => exact absurd idle goesOn
  | ran idle => exact absurd idle goesOn

/-! ## The fatal latch (R54) -/

/-- An instruction that answers a next state started with no fatal error latched (R54, R190). -/
theorem Effect.fatal_none {s t : State} {i : Instr} (h : Effect s i t) : s.fatal = none := by
  cases h with
  | opened ready | openFailed ready => exact (State.openRefusal_none.mp ready).2.1
  | clocked ready | poweredDown ready | poweredUp ready | cleanedUp ready => exact ready.2.1
  | accessed _ ready | configured ready | rewritten ready | recovered _ ready | answered ready | computed ready =>
    exact ready.1.2.1

/-- With a fatal error latched every instruction is refused (R54, R328). -/
theorem exec_refused_of_fatal {s : State} (i : Instr) (h : s.fatal ≠ none) : ∃ r, exec i s = .refused r := by
  cases e : exec i s with
  | next t => exact absurd (exec_effect e).fatal_none h
  | fault f => cases f
  | refused r => exact ⟨r, rfl⟩

/-- An operation that goes on started with no fatal error latched (R200). -/
theorem State.pendingSound_fatal {s : State} (h : s.pendingSound = true) (fatal : s.fatal ≠ none) :
    s.pending = none := by
  unfold State.pendingSound at h
  cases p : s.pending with
  | none => rfl
  | some _ => simp_all

/-- Settles O13: only the environment's turn is a step of such a state. -/
theorem fatalRefusesEverything : Obligations.FatalRefusesEverything := by
  refine ⟨fun i s fatal => exec_refused_of_fatal i fatal, fun s t sound fatal steps => ?_, fun _ => rfl⟩
  have idle := State.pendingSound_fatal sound fatal
  cases step_effect steps with
  | resumed _ goesOn => simp [idle] at goesOn
  | turned _ next => rw [next]
  | ran _ _ _ did => exact absurd (exec_effect did).fatal_none fatal

end Sys2Proof.Machine
end

section
/-! PROOFS of the statement about what CONFIGURE stores (spec/41_power_config.md R203 to R209; spec/10_state.md R40,
R45): the range of each normalised operand, and which warnings each one can log. -/

namespace Sys2Proof.Machine

/-! ## Ranges -/

theorem normMeasMode_legal (m : Int) : (normMeasMode m).1 = 1 ∨ (normMeasMode m).1 = 2 := by
  unfold normMeasMode
  split
  · exact .inl rfl
  · split
    · exact .inr rfl
    · exact .inl rfl

theorem normCalPeriods_legal (r : Int) : (normCalPeriods r).1 ∈ [2, 10, 20, 40] := by
  unfold normCalPeriods
  repeat' split
  all_goals decide

theorem normAvgCycles_legal (a : Int) : (normAvgCycles a).1 ∈ [1, 2, 4, 8, 16, 32, 64, 128] := by
  unfold normAvgCycles
  repeat' split
  all_goals decide

theorem normNumStop_legal (n : Int) : 1 ≤ (normNumStop n).1 ∧ (normNumStop n).1 ≤ 5 := by
  unfold normNumStop
  split <;> dsimp only <;> omega

theorem clamp16_le (w : Warning) (n : Int) : (clamp16 w n).1 ≤ 65535 := by
  unfold clamp16
  repeat' split
  all_goals dsimp only; omega

theorem overflowCount_le (clockPeriod : Rat) (r : OverflowRequest) : (overflowCount clockPeriod r).1 ≤ 65535 := by
  cases r <;> exact clamp16_le ..

/-- Above a stop mask that is not refused there is room for the overflow (R208, R209). -/
theorem raiseOverflow_range {mask ovf : Nat} (hm : mask < 65535) (ho : ovf ≤ 65535) :
    mask < (raiseOverflow mask ovf).1 ∧ (raiseOverflow mask ovf).1 ≤ 65535 := by
  unfold raiseOverflow
  split <;> dsimp only <;> omega

/-- A stop mask is refused only if it comes to 0xFFFF (R208). -/
theorem stopMask_lt_of_not_refused {q : ConfigRequest} (h : stopMaskRefused q = false) :
    (clamp16 .stopMaskClamped q.stopMask).1 < 65535 := by
  have le := clamp16_le .stopMaskClamped q.stopMask
  simp only [stopMaskRefused, beq_eq_false_iff_ne] at h
  omega

/-- The overflow CONFIGURE stores exceeds its stop mask (R40, R209). -/
theorem normalise_overflow {p : Params} {q : ConfigRequest} (h : stopMaskRefused q = false) :
    (normalise p q).1.stopMask.toNat < (normalise p q).1.overflow.toNat := by
  have mask := stopMask_lt_of_not_refused h
  have range := raiseOverflow_range mask (overflowCount_le p.clockPeriod q.overflow)
  simp only [normalise, BitVec.toNat_ofNat]
  omega

/-- What CONFIGURE stores is legal (R45). -/
theorem normalise_legal {p : Params} {q : ConfigRequest} (h : stopMaskRefused q = false) :
    (normalise p q).1.legal = true := by
  have overflow := normalise_overflow (p := p) h
  have mode := normMeasMode_legal q.measMode
  have tier := normCalPeriods_legal q.calPeriods
  have cycles := normAvgCycles_legal q.avgCycles
  have stops := normNumStop_legal q.numStop
  simp only [List.mem_cons, List.not_mem_nil, or_false] at tier cycles
  simp only [Cfg.legal, Bool.and_eq_true, Bool.or_eq_true, beq_iff_eq, decide_eq_true_eq, or_assoc]
  exact ⟨⟨⟨⟨⟨mode, tier⟩, cycles⟩, stops.1⟩, stops.2⟩, overflow⟩

/-! ## Warnings -/

theorem normCalPeriods_warns {r : Int} {w : Warning} (h : w ∈ (normCalPeriods r).2) :
    w = .calPeriodsBelow ∨ w = .calPeriodsAbove := by
  unfold normCalPeriods at h
  (repeat' split at h) <;> simp_all

theorem normAvgCycles_warns {a : Int} {w : Warning} (h : w ∈ (normAvgCycles a).2) :
    w = .avgCyclesBelow ∨ w = .avgCyclesAbove := by
  unfold normAvgCycles at h
  (repeat' split at h) <;> simp_all

theorem normMeasMode_warns {m : Int} {w : Warning} (h : w ∈ (normMeasMode m).2) : w = .badMeasMode := by
  unfold normMeasMode at h
  (repeat' split at h) <;> simp_all

theorem normNumStop_warns {n : Int} {w : Warning} (h : w ∈ (normNumStop n).2) : w = .badNumStop := by
  unfold normNumStop at h
  split at h <;> simp_all

theorem clamp16_warns {v w : Warning} {n : Int} (h : w ∈ (clamp16 v n).2) : w = v := by
  unfold clamp16 at h
  (repeat' split at h) <;> simp_all

theorem overflowCount_warns {clockPeriod : Rat} {r : OverflowRequest} {w : Warning}
    (h : w ∈ (overflowCount clockPeriod r).2) : w = .overflowClamped ∨ w = .timeoutClamped := by
  cases r with
  | count n => exact .inl (clamp16_warns h)
  | timeout t => exact .inr (clamp16_warns h)

theorem raiseOverflow_warns {mask ovf : Nat} {w : Warning} (h : w ∈ (raiseOverflow mask ovf).2) :
    w = .overflowRaised := by
  unfold raiseOverflow at h
  split at h <;> simp_all

/-- A warning of CONFIGURE is that of one of its operands (R203 to R209). -/
theorem mem_normalise_warnings {p : Params} {q : ConfigRequest} {w : Warning} : w ∈ (normalise p q).2 ↔
    w ∈ (normMeasMode q.measMode).2 ∨ w ∈ (normCalPeriods q.calPeriods).2 ∨ w ∈ (normAvgCycles q.avgCycles).2 ∨
    w ∈ (normNumStop q.numStop).2 ∨ w ∈ (clamp16 .stopMaskClamped q.stopMask).2 ∨
    w ∈ (overflowCount p.clockPeriod q.overflow).2 ∨
    w ∈ (raiseOverflow (clamp16 .stopMaskClamped q.stopMask).1 (overflowCount p.clockPeriod q.overflow).1).2 := by
  simp [normalise]

/-- Only the measurement mode is warned of as bad mode (R205). -/
theorem badMeasMode_mem_normalise {p : Params} {q : ConfigRequest} :
    .badMeasMode ∈ (normalise p q).2 ↔ .badMeasMode ∈ (normMeasMode q.measMode).2 := by
  rw [mem_normalise_warnings]
  refine ⟨fun h => ?_, .inl⟩
  obtain h | h | h | h | h | h | h := h
  · exact h
  · simpa using normCalPeriods_warns h
  · simpa using normAvgCycles_warns h
  · simpa using normNumStop_warns h
  · simpa using clamp16_warns h
  · simpa using overflowCount_warns h
  · simpa using raiseOverflow_warns h

/-- Only the stop count is warned of as bad stop count (R206). -/
theorem badNumStop_mem_normalise {p : Params} {q : ConfigRequest} :
    .badNumStop ∈ (normalise p q).2 ↔ .badNumStop ∈ (normNumStop q.numStop).2 := by
  rw [mem_normalise_warnings]
  refine ⟨fun h => ?_, fun h => .inr (.inr (.inr (.inl h)))⟩
  obtain h | h | h | h | h | h | h := h
  · simpa using normMeasMode_warns h
  · simpa using normCalPeriods_warns h
  · simpa using normAvgCycles_warns h
  · exact h
  · simpa using clamp16_warns h
  · simpa using overflowCount_warns h
  · simpa using raiseOverflow_warns h

theorem normMeasMode_of_legal {m : Int} (h : m = 1 ∨ m = 2) :
    ((normMeasMode m).1 : Int) = m ∧ (normMeasMode m).2 = [] := by
  obtain rfl | rfl := h <;> decide

theorem normMeasMode_of_other {m : Int} (h1 : m ≠ 1) (h2 : m ≠ 2) : normMeasMode m = (1, [.badMeasMode]) := by
  simp [normMeasMode, h1, h2]

theorem normNumStop_of_legal {n : Int} (h1 : 1 ≤ n) (h5 : n ≤ 5) : normNumStop n = (n.toNat, []) := by
  simp [normNumStop, h1, h5]

theorem normNumStop_of_other {n : Int} (h : n < 1 ∨ 5 < n) : normNumStop n = (1, [.badNumStop]) := by
  rw [normNumStop, if_neg (by omega)]

/-- Settles O37: the ranges give the legality, and each clause about a warning is about its own operand's. -/
theorem normalisedRequestIsLegal : Obligations.NormalisedRequestIsLegal := by
  intro p q
  refine ⟨normalise_legal, fun mode => ?_, fun h1 h2 => ?_, fun h1 h5 => ?_, fun other => ?_, rfl, rfl, rfl, rfl⟩
  · obtain ⟨passes, silent⟩ := normMeasMode_of_legal mode
    exact ⟨passes, by rw [badMeasMode_mem_normalise, silent]; exact List.not_mem_nil⟩
  · have e := normMeasMode_of_other h1 h2
    exact ⟨congrArg Prod.fst e, by rw [badMeasMode_mem_normalise, e]; exact List.mem_singleton_self _⟩
  · have e := normNumStop_of_legal h1 h5
    refine ⟨?_, by rw [badNumStop_mem_normalise, e]; exact List.not_mem_nil⟩
    rw [show (normalise p q).1.numStop = q.numStop.toNat from congrArg Prod.fst e, Int.toNat_of_nonneg (by omega)]
  · have e := normNumStop_of_other other
    exact ⟨congrArg Prod.fst e, by rw [badNumStop_mem_normalise, e]; exact List.mem_singleton_self _⟩

end Sys2Proof.Machine
end

section
/-! PROOFS of the invariant of Sys2Proof/Safety.lean: each of its parts as a proposition, what each operation of the
block keeps of it, and, from what each instruction did, that every step keeps it. -/

namespace Sys2Proof.Machine

/-! ## The parts of the invariant as propositions -/

theorem State.heldInReset_iff {s : State} : s.heldInReset = true ↔
    (s.world.held s.params = true → s.world.target = Target.inReset s.params) := by
  cases h : s.world.held s.params <;> simp [State.heldInReset, h]

theorem State.atRest_iff {s : State} : s.atRest = true ↔ s.mstate = .idle ∧ s.world.target.ap = none := by
  simp [State.atRest]

theorem State.powerSound_iff {s : State} : s.powerSound = true ↔
    (s.pstate ≠ .off → s.busOpen = true ∧ s.fatal = none ∧ s.world.held s.params = false) := by
  have held : s.world.held s.params = false ↔ (!s.params.pins.enable || s.world.lines.enable) = true := by
    cases e : s.params.pins.enable <;> simp [World.held, e]
  cases h : s.pstate <;> simp only [State.powerSound, held, h] <;> simp [and_assoc]

theorem State.configuredSound_iff {s : State} : s.configuredSound = true ↔
    (s.pstate = .configured → s.cfg.isSome = true ∧ s.retained.isSome = true) := by
  cases h : s.pstate <;> simp [State.configuredSound, h]

/-- `cal_periods` is `cfg`'s tier. -/
theorem State.calPeriodsSound_of_eq {s : State} (h : s.calPeriods = s.cfg.map Cfg.calPeriods) :
    s.calPeriodsSound = true := by
  simp [State.calPeriodsSound, h]

theorem State.pendingSound_of_none {s : State} (h : s.pending = none) : s.pendingSound = true := by
  simp [State.pendingSound, h]

theorem State.pendingSound_iff {s : State} {p : Pending} (h : s.pending = some p) : s.pendingSound = true ↔
    s.params.retryLimit = none ∧ s.busOpen = true ∧ s.fatal = none ∧ s.pstate ≠ .off ∧ s.cfg.isSome = true ∧
      p.writes ≠ [] ∧ ∀ r ∈ retainedSlots, (s.mirror8.get r).value.isSome = true ∨
        p.writes.any (fun w => w.covers r) = true := by
  simp only [State.pendingSound, h]
  simp [and_assoc]

theorem State.deliverySound_iff {s : State} : s.deliverySound = true ↔
    s.delivered.tof.toList.map Option.isSome = s.tof.toList.map Option.isSome ∧
    s.delivered.delta = deltasOf s.params.float s.delivered.tof ∧
    (s.params.float = .exact → s.delivered = ⟨s.calCount, s.normLsb, s.tof, s.delta⟩) := by
  simp [State.deliverySound, and_assoc, imp_iff_not_or]

/-- With no CONFIGURE going on and no fatal error, `cal_periods` is `cfg`'s tier. -/
theorem State.Inv.calPeriods_eq {s : State} (h : s.Inv) (alone : s.pending = none) (fatal : s.fatal = none) :
    s.calPeriods = s.cfg.map Cfg.calPeriods := by
  simpa [State.calPeriodsSound, State.configuring, alone, fatal] using h.calPeriodsSound

theorem State.Inv.pointer {s : State} (h : s.Inv) : s.world.target.ap = none := (State.atRest_iff.mp h.atRest).2

/-! ## The world and the lines -/

/-- What the host alone sees of a state is no part of the invariant. -/
theorem State.Inv.host {s : State} (h : s.Inv) (speed : Option Rat) (requests : List Request) (y : Yield)
    (l : List Observation) :
    ({ s with busSpeed := speed, requests := requests, result := y, log := l } : State).Inv :=
  ⟨h.mirrorCoherent, h.cfgLegal, h.heldInReset, h.atRest, h.powerSound, h.configuredSound, h.calPeriodsSound,
    h.pendingSound, h.latchesSound, h.outcomeLegal, h.deliverySound⟩

/-- A change of the world that holds ENABLE, leaves no pointer and keeps a target in reset. -/
theorem State.Inv.goes {s : State} (h : s.Inv) {w : World} (g : s.world.Goes s.params w) (l : List Observation) :
    ({ s with world := w, log := l } : State).Inv := by
  have held : w.held s.params = true → w.target = Target.inReset s.params := fun k =>
    g.held (g.keepsHeld.symm.trans k) (State.heldInReset_iff.mp h.heldInReset (g.keepsHeld.symm.trans k))
  have power := State.powerSound_iff.mp h.powerSound
  have rest := State.atRest_iff.mp h.atRest
  exact ⟨h.mirrorCoherent, h.cfgLegal, State.heldInReset_iff.mpr held,
    State.atRest_iff.mpr ⟨rest.1, g.target.pointer.trans rest.2⟩,
    State.powerSound_iff.mpr fun on => ⟨(power on).1, (power on).2.1, g.keepsHeld.trans (power on).2.2⟩,
    h.configuredSound, h.calPeriodsSound, h.pendingSound, h.latchesSound, h.outcomeLegal, h.deliverySound⟩

/-- A turn of the environment keeps the invariant. -/
theorem State.Inv.nextTurn {s : State} (h : s.Inv) : s.nextTurn.2.Inv := h.goes s.around_follows.goes s.log

theorem State.Inv.driveLine {s : State} (h : s.Inv) {role : PinRole} (other : role ≠ .enable) (l : Bool) :
    (s.driveLine role l).Inv := by
  have g := s.driveLine_goes role l other
  rw [State.driveLine_eq]
  exact h.goes g _

theorem State.Inv.driveOrWarn {s : State} (h : s.Inv) {role : PinRole} (other : role ≠ .enable) (l : Bool) :
    (s.driveOrWarn role l).Inv := by
  have warned : (s.warnUnassigned role).Inv := by
    rw [State.warnUnassigned_eq]
    exact h.host ..
  exact warned.driveLine other l

/-- ENABLE driven low holds the target in reset where it is assigned (R361). -/
theorem State.driveEnableLow_held (s : State) :
    (s.driveLine .enable false).world.held s.params = true →
      (s.driveLine .enable false).world.target = Target.inReset s.params := by
  rw [State.driveLine_world]
  cases k : s.params.pins.enable
  · simp [World.held, k]
  · simp only [Pins.has, k, World.drive, if_true]
    exact fun _ => (World.enableLow_held _ _ k).2

/-- ENABLE driven low while the power state is Off. -/
theorem State.Inv.driveEnableLow {s : State} (h : s.Inv) (off : s.pstate = .off) : (s.driveLine .enable false).Inv := by
  have held := s.driveEnableLow_held
  have pointer := (s.driveLine_onward .enable false).2.1 h.pointer
  have rest := State.atRest_iff.mp h.atRest
  rw [State.driveLine_eq]
  exact ⟨h.mirrorCoherent, h.cfgLegal, State.heldInReset_iff.mpr held, State.atRest_iff.mpr ⟨rest.1, pointer⟩,
    State.powerSound_iff.mpr fun on => absurd off on, h.configuredSound, h.calPeriodsSound, h.pendingSound,
    h.latchesSound, h.outcomeLegal, h.deliverySound⟩

/-- The bus opened or closed while the power state is Off. -/
theorem State.Inv.setBusOpen {s : State} (h : s.Inv) (off : s.pstate = .off) (alone : s.pending = none) (b : Bool) :
    ({ s with busOpen := b } : State).Inv :=
  ⟨h.mirrorCoherent, h.cfgLegal, h.heldInReset, h.atRest, State.powerSound_iff.mpr fun on => absurd off on,
    h.configuredSound, h.calPeriodsSound, State.pendingSound_of_none alone, h.latchesSound, h.outcomeLegal,
    h.deliverySound⟩

/-! ## Power -/

/-- OFF keeps the invariant (R195). -/
theorem State.Inv.powerDown {s : State} (h : s.Inv) (alone : s.pending = none) : s.powerDown.Inv := by
  have coherent := s.powerDown_coherent h.mirrorCoherent
  have held := s.powerDown_held
  have pointer := s.powerDown_pointer h.pointer
  have rest := State.atRest_iff.mp h.atRest
  rw [State.powerDown_eq] at coherent held ⊢
  exact ⟨coherent, h.cfgLegal, held, State.atRest_iff.mpr ⟨rest.1, pointer⟩,
    State.powerSound_iff.mpr fun on => absurd rfl on, State.configuredSound_iff.mpr nofun, h.calPeriodsSound,
    State.pendingSound_of_none alone, h.latchesSound, h.outcomeLegal, h.deliverySound⟩

/-- ON keeps the invariant (R196). -/
theorem State.Inv.powerUp {s : State} (h : s.Inv) (ready : s.Accepting) : s.powerUp.Inv := by
  obtain ⟨alone, fatal, opened, idle⟩ := ready
  obtain ⟨lines, -, -, pointer, -⟩ := s.powerUp_onward
  have released : s.powerUp.world.held s.params = false := by
    cases k : s.params.pins.enable <;> simp [World.held, lines, k]
  rw [State.powerUp_eq]
  exact ⟨h.mirrorCoherent, h.cfgLegal, State.heldInReset_iff.mpr fun held => by simp [released] at held,
    State.atRest_iff.mpr ⟨idle, pointer h.pointer⟩, State.powerSound_iff.mpr fun _ => ⟨opened, fatal, released⟩,
    State.configuredSound_iff.mpr nofun, h.calPeriodsSound, State.pendingSound_of_none alone, h.latchesSound,
    h.outcomeLegal, h.deliverySound⟩

/-- CLEANUP keeps the invariant (R214). -/
theorem State.Inv.cleanedUp {s : State} (h : s.Inv) (alone : s.pending = none) : s.cleanedUp.Inv := by
  have lines := (((h.powerDown alone).driveOrWarn (role := .oscEnable) (by decide) false).driveLine
    (role := .start) (by decide) false).driveLine (role := .stop) (by decide) false
  refine lines.setBusOpen ?_ ?_ false
  · rw [State.driveLine_eq, State.driveLine_eq, State.driveOrWarn_eq, State.powerDown_eq]
  · rw [State.driveLine_eq, State.driveLine_eq, State.driveOrWarn_eq, State.powerDown_eq]
    exact alone

/-- While the bus is closed the power state is Off (R190). -/
theorem State.Inv.off_of_closed {s : State} (h : s.Inv) (closed : s.busOpen = false) : s.pstate = .off := by
  by_contra on
  have opened := (State.powerSound_iff.mp h.powerSound on).1
  simp [closed] at opened

/-- OPEN keeps the invariant where the transport opens (R191). -/
theorem State.Inv.opened {s : State} (h : s.Inv) (off : s.pstate = .off) (alone : s.pending = none) :
    ({ s with busOpen := true } : State).driveOutputsLow.Inv :=
  ((((h.setBusOpen off alone true).driveEnableLow off).driveLine (role := .oscEnable) (by decide) false).driveLine
    (role := .start) (by decide) false).driveLine (role := .stop) (by decide) false

/-- BusUnavailable keeps the invariant (R191, R328). -/
theorem State.Inv.busUnavailable {s : State} (h : s.Inv) (closed : s.busOpen = false) (alone : s.pending = none) :
    (s.raiseFatal .busUnavailable).Inv := by
  have off := h.off_of_closed closed
  have e : s.raiseFatal .busUnavailable = { s with
      fatal := some .busUnavailable, mstate := .idle, result := .failed .busUnavailable
      log := s.log ++ [.failed .busUnavailable] } := by
    simp [State.raiseFatal, State.note, closed]
  rw [e]
  exact ⟨h.mirrorCoherent, h.cfgLegal, h.heldInReset, State.atRest_iff.mpr ⟨rfl, h.pointer⟩,
    State.powerSound_iff.mpr fun on => absurd off on, h.configuredSound, rfl, State.pendingSound_of_none alone,
    h.latchesSound, h.outcomeLegal, h.deliverySound⟩

/-! ## While MEASURE runs -/

/-- The invariant but for `mstate`, which moves while MEASURE runs: the target runs and no other operation goes on. -/
structure State.Running (s : State) : Prop where
  inv   : ({ s with mstate := .idle } : State).Inv
  on    : s.pstate ≠ .off
  alone : s.pending = none

theorem State.Inv.running {s : State} (h : s.Inv) (ready : s.Accessible) : s.Running := by
  obtain ⟨⟨alone, -, -, idle⟩, on⟩ := ready
  refine ⟨?_, on, alone⟩
  rw [show ({ s with mstate := .idle } : State) = s by rw [← idle]]
  exact h

theorem State.Running.resting {s : State} (h : s.Running) (idle : s.mstate = .idle) : s.Inv := by
  have i := h.inv
  rw [show ({ s with mstate := .idle } : State) = s by rw [← idle]] at i
  exact i

/-- MEASURE's steps keep the invariant but for `mstate`. -/
theorem State.Running.onward {s t : State} (h : s.Running) (o : Onward s t) : t.Running := by
  obtain ⟨i, on, alone⟩ := h
  have coherent := o.coherent i.mirrorCoherent
  have pointer := o.pointer i.pointer
  have enable := o.enable
  have present := o.present
  obtain ⟨w, m8, m16, m24, m, y, l, rfl⟩ := o.ex
  have power := State.powerSound_iff.mp i.powerSound on
  have released : w.held s.params = false := by
    rw [World.held, show w.lines.enable = s.world.lines.enable from enable]
    exact power.2.2
  have configured (k : s.pstate = .configured) := State.configuredSound_iff.mp i.configuredSound k
  refine ⟨⟨coherent, i.cfgLegal, State.heldInReset_iff.mpr fun held => ?_, State.atRest_iff.mpr ⟨rfl, pointer⟩,
    State.powerSound_iff.mpr fun _ => ⟨power.1, power.2.1, released⟩,
    State.configuredSound_iff.mpr fun k => ⟨(configured k).1, ?_⟩, i.calPeriodsSound,
    State.pendingSound_of_none alone, i.latchesSound, i.outcomeLegal, i.deliverySound⟩, on, alone⟩
  · rw [show World.held _ _ = false from released] at held
    cases held
  · rw [State.retained_iff]
    exact fun r hr => present r ((State.retained_iff _).mp (configured k).2 r hr)

/-! ## The result latches -/

/-- `cal_count` is never 0 (R283, R284). -/
theorem calCountOf_ne_zero {periods : Nat} {c1 c2 : Word24} {q : Rat} (h : calCountOf periods c1 c2 = some q) :
    q ≠ 0 := by
  unfold calCountOf at h
  split at h
  · cases h
  · rename_i guard
    simp only [not_or] at guard
    cases h
    have numerator : ((c2.toNat : Int) - c1.toNat : Int) ≠ 0 := fun e => guard.2 (BitVec.eq_of_toNat_eq (by omega))
    have divisor : ((periods : Int) - 1 : Int) ≠ 0 := fun e => guard.1 (by omega)
    exact div_ne_zero (Int.cast_ne_zero.mpr numerator) (Int.cast_ne_zero.mpr divisor)

theorem tofMode1_isSome (f : NumberSystem) (norm : Rat) (time : Word24) :
    (tofMode1 f norm time).isSome = decide (time ≠ 0#24) := by
  unfold tofMode1
  split <;> simp_all

theorem tofMode2_isSome (f : NumberSystem) (norm clockPeriod : Rat) (avg : Nat) (time1 timeNext count : Word24) :
    (tofMode2 f norm clockPeriod avg time1 timeNext count).isSome = decide (timeNext ≠ 0#24) := by
  unfold tofMode2
  split <;> simp_all

/-- Which slots are present does not depend on the number system (R286 to R290, R304). -/
theorem tofsOf_present (f g : NumberSystem) (mode : Nat) (n1 n2 p1 p2 : Rat) (avg : Nat) (x : File24 Word24) :
    (tofsOf f mode n1 p1 avg x).toList.map Option.isSome = (tofsOf g mode n2 p2 avg x).toList.map Option.isSome := by
  unfold tofsOf
  split <;> simp [Tofs.toList, tofMode1_isSome, tofMode2_isSome]

theorem State.latchTofs_latchesSound (s : State) {q : Rat} (c : Cfg) (h : q ≠ 0) :
    (s.latchTofs q c).latchesSound = true := by
  simp [State.latchesSound, h]

theorem State.latchTofs_deliverySound (s : State) (q : Rat) (c : Cfg) : (s.latchTofs q c).deliverySound = true := by
  refine State.deliverySound_iff.mpr ⟨tofsOf_present .., rfl, fun exact => ?_⟩
  have e : s.params.float = .exact := exact
  rw [State.latchTofs_delivered, e]
  rfl

theorem State.latchNoCalibration_latchesSound (s : State) : s.latchNoCalibration.latchesSound = true := rfl

theorem State.latchNoCalibration_deliverySound (s : State) : s.latchNoCalibration.deliverySound = true :=
  State.deliverySound_iff.mpr ⟨rfl, rfl, fun _ => rfl⟩

theorem State.computeTofs_mstate (s : State) (c : Cfg) (periods : Nat) :
    (s.computeTofs c periods).2.mstate = s.mstate := by
  unfold State.computeTofs
  split <;> rfl

/-- COMPUTE_TOFS keeps the invariant but for `mstate` (R280). -/
theorem State.Running.computeTofs {s : State} (h : s.Running) (c : Cfg) (periods : Nat) :
    (s.computeTofs c periods).2.Running := by
  obtain ⟨i, on, alone⟩ := h
  unfold State.computeTofs
  split
  · rename_i q e
    exact ⟨⟨i.mirrorCoherent, i.cfgLegal, i.heldInReset, i.atRest, i.powerSound, i.configuredSound, i.calPeriodsSound,
      i.pendingSound, s.latchTofs_latchesSound c (calCountOf_ne_zero e), i.outcomeLegal,
      s.latchTofs_deliverySound q c⟩, on, alone⟩
  · exact ⟨⟨i.mirrorCoherent, i.cfgLegal, i.heldInReset, i.atRest, i.powerSound, i.configuredSound, i.calPeriodsSound,
      i.pendingSound, s.latchNoCalibration_latchesSound, i.outcomeLegal, s.latchNoCalibration_deliverySound⟩, on, alone⟩

theorem State.outcomeLegal_of_legal {s : State} {o : MeasOutcome} (e : s.outcome = some o) (h : o.Legal) :
    s.outcomeLegal = true := by
  cases o with
  | success n => simpa [State.outcomeLegal, e] using h n rfl
  | _ => simp [State.outcomeLegal, e]

/-- MEASURE's return restores the invariant (R330). -/
theorem State.Running.finish {s : State} (h : s.Running) {o : MeasOutcome} (legal : o.Legal) : (s.finish o).Inv := by
  have i := h.inv
  exact ⟨i.mirrorCoherent, i.cfgLegal, i.heldInReset, i.atRest, i.powerSound, i.configuredSound, i.calPeriodsSound,
    i.pendingSound, i.latchesSound, State.outcomeLegal_of_legal rfl legal, i.deliverySound⟩

theorem Answered.inv {s t : State} (h : s.Running) (a : Answered s t) : t.Inv := by
  obtain ⟨u, v, w, o, steps, computes, returns, legal, rfl⟩ := a
  have converted : v.Running := by
    obtain rfl | ⟨c, periods, rfl⟩ := computes
    · exact h.onward steps
    · exact (h.onward steps).computeTofs c periods
  exact (converted.onward returns).finish legal

/-! ## The verified writes of an operation -/

/-- What an operation's verified writes start from: the invariant, but that a CONFIGURE has not set `cal_periods` yet;
the target runs, `cfg` is set, and every slot a recovery needs is present or to be written (R200, R202, R212). -/
structure State.Writing (u : State) (op : WriteOp) (ws : List VerifiedWrite) : Prop where
  inv        : ({ u with calPeriods := u.cfg.map Cfg.calPeriods } : State).Inv
  calPeriods : op ≠ .configure → u.calPeriods = u.cfg.map Cfg.calPeriods
  on         : u.pstate ≠ .off
  alone      : u.pending = none
  cfg        : u.cfg.isSome = true
  needed     : ∀ r ∈ retainedSlots, (u.mirror8.get r).value.isSome = true ∨ ws.any (fun w => w.covers r) = true

/-- Transfers keep what an operation's writes start from. -/
theorem State.Writing.bus {u x : State} {op : WriteOp} {ws : List VerifiedWrite} (h : u.Writing op ws)
    (b : BusOnly u x) : x.Writing op ws := by
  have accessible : ({ u with calPeriods := u.cfg.map Cfg.calPeriods } : State).Accessible :=
    ⟨⟨h.alone, (State.powerSound_iff.mp h.inv.powerSound h.on).2.1, (State.powerSound_iff.mp h.inv.powerSound h.on).1,
      (State.atRest_iff.mp h.inv.atRest).1⟩, h.on⟩
  have present := b.present
  obtain ⟨w, m8, m16, m24, y, l, rfl⟩ := b.ex
  have b' : BusOnly { u with calPeriods := u.cfg.map Cfg.calPeriods }
      { u with calPeriods := u.cfg.map Cfg.calPeriods, world := w, mirror8 := m8, mirror16 := m16, mirror24 := m24,
               result := y, log := l } := ⟨rfl, b.time, b.lines, b.ap, b.coherent, b.present⟩
  exact ⟨((h.inv.running accessible).onward b'.onward).resting accessible.1.2.2.2, h.calPeriods, h.on, h.alone, h.cfg,
    fun r hr => (h.needed r hr).imp_left (present r)⟩

/-- Writes that all matched, and the operation's last part (R202, R212, R232, R257). -/
theorem State.Writing.afterWrites {u : State} {op : WriteOp} {ws : List VerifiedWrite} (h : u.Writing op ws)
    (covered : Covered ws u) : (u.afterWrites op).Inv := by
  have i := h.inv
  have power := State.powerSound_iff.mp i.powerSound h.on
  have retained : u.retained.isSome = true :=
    u.retained_iff.mpr fun r hr => (h.needed r hr).elim id (covered r)
  have rest := State.atRest_iff.mp i.atRest
  rw [State.afterWrites_eq]
  refine ⟨i.mirrorCoherent, i.cfgLegal, i.heldInReset, State.atRest_iff.mpr ⟨?_, rest.2⟩,
    State.powerSound_iff.mpr fun _ => power, State.configuredSound_iff.mpr fun _ => ⟨h.cfg, retained⟩,
    State.calPeriodsSound_of_eq ?_, State.pendingSound_of_none h.alone, i.latchesSound, ?_, i.deliverySound⟩
  · dsimp only
    split
    · rfl
    · exact rest.1
  · dsimp only
    split
    · rfl
    · rename_i other
      exact h.calPeriods other
  · by_cases k : op = .measure
    · exact State.outcomeLegal_of_legal (o := .triggerPolarity) (by simp [k]) nofun
    · simp only [k, if_false]
      exact i.outcomeLegal

/-- A write that gave up (R316, R328). -/
theorem State.Writing.failed {u t : State} {op : WriteOp} {ws : List VerifiedWrite} (h : u.Writing op ws)
    (gaveUp : WriteFailed u t) : t.Inv := by
  have i := h.inv
  have stop := gaveUp.fatal (State.powerSound_iff.mp i.powerSound h.on).1
  have coherent := stop.coherent i.mirrorCoherent
  have pointer := stop.ap i.pointer
  have held := stop.held
  rw [stop.frame] at coherent held ⊢
  exact ⟨coherent, i.cfgLegal, held, State.atRest_iff.mpr ⟨rfl, pointer⟩,
    State.powerSound_iff.mpr fun on => absurd rfl on, State.configuredSound_iff.mpr nofun, rfl,
    State.pendingSound_of_none h.alone, i.latchesSound, i.outcomeLegal, i.deliverySound⟩

/-- Writes that go on in the next step (R200). -/
theorem State.Writing.goesOn {u t : State} {op : WriteOp} {ws : List VerifiedWrite} (h : u.Writing op ws)
    (more : WriteGoesOn op ws u t) : t.Inv := by
  obtain ⟨x, rest, bus, limit, left, rfl, covers⟩ := more
  have k := h.bus bus
  have i := k.inv
  have power := State.powerSound_iff.mp i.powerSound k.on
  have needed : ∀ r ∈ retainedSlots,
      (x.mirror8.get r).value.isSome = true ∨ rest.any (fun w => w.covers r) = true := fun r hr =>
    (h.needed r hr).elim (fun present => .inl (bus.present r present)) (covers r)
  refine ⟨i.mirrorCoherent, i.cfgLegal, i.heldInReset, i.atRest, i.powerSound, i.configuredSound, ?_,
    (State.pendingSound_iff rfl).mpr ⟨bus.params.symm ▸ limit, power.1, power.2.1, k.on, k.cfg, left, needed⟩,
    i.latchesSound, i.outcomeLegal, i.deliverySound⟩
  by_cases configure : op = .configure
  · simp [State.calPeriodsSound, State.configuring, configure]
  · exact State.calPeriodsSound_of_eq (k.calPeriods configure)

theorem WritesEnd.inv {op : WriteOp} {ws : List VerifiedWrite} {u t : State} (h : u.Writing op ws)
    (e : WritesEnd op ws u t) : t.Inv := by
  cases e with
  | verified x bus covered last => exact last ▸ (h.bus bus).afterWrites covered
  | failed gaveUp => exact h.failed gaveUp
  | goesOn more => exact h.goesOn more

/-- A configuration written again starts from the invariant (R212). -/
theorem Rewrites.inv {op : WriteOp} {u t : State} (h : u.Inv) (ready : u.Accessible) (cfg : u.cfg.isSome = true)
    (e : Rewrites op u t) : t.Inv := by
  obtain ⟨ws, retained, ends⟩ := e
  obtain ⟨⟨alone, fatal, -, -⟩, on⟩ := ready
  have tier := h.calPeriods_eq alone fatal
  have present := u.retained_iff.mp (by rw [retained]; rfl)
  refine ends.inv ⟨?_, fun _ => tier, on, alone, cfg, fun r hr => .inl (present r hr)⟩
  rw [← tier]
  exact h

/-- A recovery keeps the invariant (R232, R257). -/
theorem Recovers.inv {op : WriteOp} {s t : State} (h : s.Inv) (ready : s.Accessible) (e : Recovers op s t) : t.Inv := by
  obtain ⟨u, bus, may, ends⟩ := e
  obtain ⟨cfg, -⟩ := State.retainRefusal_none.mp may
  obtain ⟨alone, fatal, opened, idle⟩ : u.Accepting := by
    rw [bus.frame]
    exact ready.1
  have begun : u.Inv := ((h.running ready).onward bus.onward).resting idle
  have accepting : u.powerDown.Accepting := by
    rw [State.powerDown_eq]
    exact ⟨alone, fatal, opened, idle⟩
  have down := begun.powerDown alone
  refine Rewrites.inv (down.powerUp accepting) ?_ ?_ ends
  · rw [State.powerUp_eq]
    exact ⟨accepting, nofun⟩
  · rw [State.powerUp_cfg, State.powerDown_cfg]
    exact cfg

/-! ## Every step -/

/-- CONFIGURE's writes start from the invariant, but for `cal_periods` (R202). -/
theorem State.Inv.withRequest {s : State} (h : s.Inv) (ready : s.Accessible) {q : ConfigRequest}
    (mask : stopMaskRefused q = false) :
    (s.withRequest q).Writing .configure (configureWrites s.params (normalise s.params q).1) := by
  obtain ⟨⟨alone, fatal, opened, idle⟩, on⟩ := ready
  have configured : (s.pstate = .configured → (s.withRequest q).cfg.isSome = true ∧ s.retained.isSome = true) :=
    fun k => ⟨rfl, (State.configuredSound_iff.mp h.configuredSound k).2⟩
  exact ⟨⟨h.mirrorCoherent, normalise_legal mask, h.heldInReset, h.atRest, h.powerSound,
    State.configuredSound_iff.mpr configured, State.calPeriodsSound_of_eq rfl, State.pendingSound_of_none alone,
    h.latchesSound, h.outcomeLegal, h.deliverySound⟩, fun other => absurd rfl other, on, alone, rfl,
    fun r hr => .inr (configurationWrites_cover _ _ _ _ _ r hr)⟩

/-- A resumed operation starts from the invariant, but for `cal_periods` (R200). -/
theorem State.Inv.resumed {s : State} (h : s.Inv) {p : Pending} (e : s.pending = some p) :
    ({ s with pending := none } : State).begin.Writing p.op p.writes := by
  obtain ⟨-, -, fatal, on, cfg, -, needed⟩ := (State.pendingSound_iff e).mp h.pendingSound
  refine ⟨⟨h.mirrorCoherent, h.cfgLegal, h.heldInReset, h.atRest, h.powerSound, h.configuredSound,
    State.calPeriodsSound_of_eq rfl, rfl, h.latchesSound, h.outcomeLegal, h.deliverySound⟩, fun other => ?_, on, rfl,
    cfg, needed⟩
  have sound := h.calPeriodsSound
  simpa [State.calPeriodsSound, State.configuring, e, fatal, other] using sound

/-- Every instruction that answers a next state keeps the invariant. -/
theorem Effect.inv {s t : State} {i : Instr} (h : s.Inv) (e : Effect s i t) : t.Inv := by
  have begun : s.begin.Inv := h.host s.busSpeed s.requests .nothing []
  cases e with
  | accessed _ ready bus => exact ((h.running ready).onward bus.onward).resting (by rw [bus.frame]; exact ready.1.2.2.2)
  | opened ready =>
    obtain ⟨alone, -, closed, -⟩ := State.openRefusal_none.mp ready
    exact begun.nextTurn.opened (h.off_of_closed closed) alone
  | openFailed ready =>
    obtain ⟨alone, -, closed, -⟩ := State.openRefusal_none.mp ready
    exact begun.nextTurn.busUnavailable closed alone
  | clocked _ speed y l => exact h.host speed s.requests y l
  | poweredDown ready => exact begun.powerDown ready.1
  | poweredUp ready => exact begun.powerUp ready
  | cleanedUp ready => exact begun.cleanedUp ready.1
  | configured ready mask ends => exact ends.inv (begun.withRequest ready mask)
  | rewritten ready may ends => exact ends.inv begun ready (State.retainRefusal_none.mp may).1
  | recovered _ ready _ ends => exact ends.inv h ready
  | answered ready returned => exact returned.inv (h.running ready)
  | computed ready c periods returned =>
    have computed := ((begun.running ready).computeTofs c periods).onward returned.onward
    refine computed.resting ?_
    rw [returned.frame]
    exact (s.begin.computeTofs_mstate c periods).trans ready.1.2.2.2

/-- Settles O9: what a step did is a turn of the environment, an instruction's effect, or a resumed operation's end. -/
theorem everyStepKeepsInvariant : Obligations.EveryStepKeepsInvariant := by
  intro s t h steps
  cases step_effect steps with
  | resumed p goesOn ends => exact ends.inv (h.resumed goesOn)
  | turned _ next => exact next ▸ h.nextTurn
  | ran _ i rest did => exact (exec_effect did).inv (h.host s.busSpeed rest s.result s.log)

end Sys2Proof.Machine
end

section
/-! PROOFS of the statements about single instructions: the operands that are refused, a pair read byte by byte, and
what a write to INT_STATUS or to CONFIG1 does to the target (spec/10_state.md R24, R27, R30, R35; spec/42_measurement.md
R260). -/

namespace Sys2Proof.Machine

/-! ## Operands (R12) -/

/-- An operation one of whose preconditions refuses is refused. -/
theorem State.attempt_refused {s : State} {refusal : Option Refusal} {body : State → Run} (h : refusal ≠ none) :
    ∃ r, s.attempt refusal body = .refused r := by
  obtain ⟨r, rfl⟩ := Option.ne_none_iff_exists'.mp h
  exact ⟨r, rfl⟩

/-- A check that refuses makes the list of checks refuse. -/
theorem firstRefusal_ne_none {x : Option Refusal} {l : List (Option Refusal)} (mem : x ∈ l) (h : x ≠ none) :
    firstRefusal l ≠ none := fun none => h (firstRefusal_none.mp none x mem)

/-- A stop mask that is not below 0xFFFF comes to 0xFFFF (R208). -/
theorem stopMaskRefused_of_le {q : ConfigRequest} (h : 65535 ≤ q.stopMask) : stopMaskRefused q = true := by
  simp only [stopMaskRefused, clamp16, beq_iff_eq]
  split
  · omega
  · split <;> dsimp only; omega

/-- REG_WRITE refuses the operands its rule gives no meaning to (R24, R129, R144). -/
theorem regWriteRefusal_of_illFormed {L : Layout} {name : RegName} {value : Nat}
    (h : regWriteWellFormed L name value = false) : regWriteRefusal L name value ≠ none := by
  cases name with
  | byte r =>
    simp only [regWriteWellFormed, Bool.and_eq_false_iff, decide_eq_false_iff_not, not_lt, Bool.not_eq_false'] at h
    intro none
    simp only [regWriteRefusal, firstRefusal_cons_none, refuseIf_none, decide_eq_false_iff_not, not_le] at none
    obtain ⟨narrow, legal, -⟩ := none
    obtain wide | reserved := h
    · omega
    · simp [legal] at reserved
  | pair p =>
    simp only [regWriteWellFormed, decide_eq_false_iff_not, not_lt] at h
    simp [regWriteRefusal, h]
  | result r => nofun

/-- Settles O14: each ill-formed operand fails a check of its own instruction. -/
theorem illFormedOperandsRefused : Obligations.IllFormedOperandsRefused := by
  intro i s h
  cases i with
  | setClockSpeed requested force =>
    have slow : requested ≤ 0 := by simpa [Instr.wellFormed] using h
    have check : refuseIf (decide (requested ≤ 0)) .speedNotPositive ≠ none := by simp [slow]
    show ∃ r, execSetClockSpeed requested force s = .refused r
    exact State.attempt_refused (firstRefusal_ne_none (.tail _ (.head _)) check)
  | configure q =>
    have refused : stopMaskRefused q = true := stopMaskRefused_of_le (by simpa [Instr.wellFormed] using h)
    have check : refuseIf (stopMaskRefused q) .stopMaskTooLarge ≠ none := by simp [refused]
    show ∃ r, execConfigure q s = .refused r
    exact State.attempt_refused (firstRefusal_ne_none (.tail _ (.head _)) check)
  | regWrite name value =>
    show ∃ r, execRegWrite name value s = .refused r
    exact State.attempt_refused (firstRefusal_ne_none (.tail _ (.head _)) (regWriteRefusal_of_illFormed h))
  | reservedHopF => exact ⟨.reservedHop, rfl⟩
  | _ => simp [Instr.wellFormed] at h

/-! ## A pair and its bytes (R27, R84) -/

theorem joinHalf_toNat (h l : Byte) : (joinHalf h l).toNat = h.toNat * 256 + l.toNat := by
  have hh := h.isLt
  have hl := l.isLt
  rw [joinHalf, BitVec.toNat_or, BitVec.toNat_shiftLeft, BitVec.toNat_setWidth, BitVec.toNat_setWidth,
    Nat.mod_eq_of_lt (by omega : h.toNat < 2 ^ 16), Nat.mod_eq_of_lt (by omega : l.toNat < 2 ^ 16),
    Nat.shiftLeft_eq, Nat.mod_eq_of_lt (by omega : h.toNat * 2 ^ 8 < 2 ^ 16), Nat.mul_comm,
    ← Nat.two_pow_add_eq_or_of_lt hl]
  omega

/-- What RD8 answers over a clean transfer (R160). -/
theorem execRd8_clean {s t : State} {r : Reg8} (clean : s.turn.noise = .clean) (h : exec (.rd8 r) s = .next t) :
    ∃ v, s.around.target.ReadsAs s.params.layout s.turn r v ∧ t.result = .byte v ∧ t.world = s.around.pointerless := by
  obtain ⟨-, e⟩ := State.attempt_next (show execRd8 r s = .next t from h)
  obtain ⟨b, v, reads, read⟩ := s.begin.busRd8_any r
  rw [read] at e
  cases e
  exact ⟨v, (reads clean).2, rfl, rfl⟩

/-- What RD16 answers over a clean transfer (R162). -/
theorem execRd16_clean {s t : State} {p : Pair} (clean : s.turn.noise = .clean) (h : exec (.rd16 p) s = .next t) :
    t.result = .half (joinHalf (s.around.target.r8.get (pairHi p)) (s.around.target.r8.get (pairLo p))) := by
  obtain ⟨-, e⟩ := State.attempt_next (show execRd16 p s = .next t from h)
  obtain ⟨b, v, reads, read⟩ := s.begin.busRd16_any p
  rw [read] at e
  cases e
  rw [(reads clean).2]
  rfl

/-- The registers of a pair are none the target writes. -/
theorem pair_ne (p : Pair) : (pairHi p ≠ .config1 ∧ pairHi p ≠ .intStatus) ∧
    (pairLo p ≠ .config1 ∧ pairLo p ≠ .intStatus) := by
  cases p <;> decide

/-- The turn after a read leaves the registers the controller alone writes as the turn before it did (R88). -/
theorem around_keeps_of_read {s t : State} (h : t.world = s.around.pointerless) (r : Reg8)
    (other : r ≠ .config1 ∧ r ≠ .intStatus) : t.around.target.r8.get r = s.around.target.r8.get r := by
  have keeps := t.around_follows.target.keeps r other.1 other.2
  rw [h] at keeps
  exact keeps

/-- Settles O24: no turn between the three reads changes a register of a pair. -/
theorem pairIsItsTwoBytes : Obligations.PairIsItsTwoBytes := by
  refine ⟨joinHalf_toNat, fun p => by cases p <;> decide, fun s t u x p cs ct cu hs ht hu => ?_⟩
  obtain ⟨hi, lo⟩ := pair_ne p
  obtain ⟨h, readsHi, resultHi, worldHi⟩ := execRd8_clean cs hs
  obtain ⟨l, readsLo, resultLo, worldLo⟩ := execRd8_clean ct ht
  refine ⟨h, l, resultHi, resultLo, ?_⟩
  rw [execRd16_clean cu hu, around_keeps_of_read worldLo _ hi, around_keeps_of_read worldHi _ hi,
    around_keeps_of_read worldLo _ lo, readsHi.other hi.2 hi.1, readsLo.other lo.2 lo.1]

/-! ## Writes to INT_STATUS and CONFIG1 -/

/-- What WR8 leaves of the world over a clean transfer (R96, R161). -/
theorem execWr8_clean {s t : State} {r : Reg8} {v : Byte} (clean : s.turn.noise = .clean)
    (h : exec (.wr8 r v) s = .next t) : t.world = s.stored8 r v := by
  obtain ⟨-, e⟩ := State.attempt_next (show execWr8 r v s = .next t from h)
  obtain ⟨b, sent, write⟩ := s.begin.busWr8_any r v
  rw [write, sent clean] at e
  cases e
  rfl

/-- WR8 completes wherever a register may be accessed (R150, R161). -/
theorem execWr8_completes {s : State} (r : Reg8) (v : Byte) (ready : s.Accessible) : ∃ t, exec (.wr8 r v) s = .next t :=
  ⟨s.begin.busWr8 r v, by
    show execWr8 r v s = _
    rw [execWr8, State.accessRefusal_none.mpr ready]
    rfl⟩

/-- Settles O25: the write completes, and a clean one is `store`'s write-one-to-clear. -/
theorem statusWriteClearsOnes : Obligations.StatusWriteClearsOnes := by
  intro s v ready clean
  obtain ⟨t, answers⟩ := execWr8_completes .intStatus v ready
  refine ⟨t, answers, ?_⟩
  rw [execWr8_clean clean answers]
  rfl

/-- The target as a write of CONFIG1 finds it when it arms: the byte stored, a measurement in flight disturbed (R96,
R102). -/
def Target.withConfig1 (turn : Turn) (v : Byte) (t : Target) : Target :=
  { t with
    r8 := { t.r8 with config1 := v }
    new24 := if t.busy then turn.results else t.new24
    disturbed := t.disturbed || t.busy }

/-- A write of CONFIG1 arms exactly if it sets START_MEAS (R30, R96). -/
theorem Target.store_config1 (L : Layout) (turn : Turn) (v : Byte) (t : Target) :
    t.store L turn .config1 v =
      if startMeasBit L v then (t.withConfig1 turn v).arm turn else t.withConfig1 turn v := by
  simp [Target.store, Target.withConfig1, File8.set]

theorem Target.arm_of_wedged {turn : Turn} {t : Target} (h : t.wedged = true) : t.arm turn = t := by
  simp [Target.arm, h]

theorem Target.arm_of_idle {turn : Turn} {t : Target} (h : t.wedged = false) (idle : t.busy = false) :
    t.arm turn = t.freshArm turn := by
  simp [Target.arm, h, idle]

/-- A busy target may ignore a second arming (U7). -/
theorem Target.arm_ignored {turn : Turn} {t : Target} (busy : t.busy = true) (draw : turn.rearm = .ignored) :
    t.arm turn = t := by
  simp [Target.arm, busy, draw]

theorem Target.arm_restarts {turn : Turn} {t : Target} (h : t.wedged = false) (busy : t.busy = true)
    (draw : turn.rearm = .restarts) : t.arm turn = t.freshArm turn := by
  simp [Target.arm, h, busy, draw]

theorem Target.arm_wedges {turn : Turn} {t : Target} (h : t.wedged = false) (busy : t.busy = true)
    (draw : turn.rearm = .wedges) :
    t.arm turn = { t with wedged := true, stuckTrig := turn.stuckTrig, stuckInt := turn.stuckInt } := by
  simp [Target.arm, Target.wedge, h, busy, draw]

/-- Settles O26: the write is `store`'s, and each case is the one of `arm` that its hypotheses choose. -/
theorem startMeasArmsTarget : Obligations.StartMeasArmsTarget := by
  intro s t v clean answers
  have world : t.world.target =
      { s.around.target.store s.params.layout s.turn .config1 v with ap := none } := by
    rw [execWr8_clean clean answers]
    rfl
  have stored : t.world.target.r8.config1 = v := by
    rw [world]
    exact Target.store_get s.params.layout s.turn .config1 v s.around.target (by decide)
  rw [Target.store_config1] at world
  generalize s.around.target = x at world ⊢
  refine ⟨stored, fun start free idle => ?_, fun start wedged => ?_, fun start => ?_, fun start free busy => ?_⟩
  · rw [if_pos start, Target.arm_of_idle (t := x.withConfig1 s.turn v) free idle] at world
    rw [world]
    exact ⟨rfl, rfl, rfl, rfl, rfl, rfl, rfl, fun r => by cases r <;> rfl⟩
  · rw [if_pos start, Target.arm_of_wedged (t := x.withConfig1 s.turn v) wedged] at world
    rw [world]
    exact ⟨rfl, rfl⟩
  · rw [if_neg (by simp [start])] at world
    rw [world]
    exact ⟨rfl, rfl, rfl⟩
  · rw [if_pos start] at world
    refine ⟨fun ignored => ?_, fun restarts => ?_, fun wedges => ?_⟩
    · rw [Target.arm_ignored (t := x.withConfig1 s.turn v) busy ignored] at world
      rw [world]
      exact ⟨rfl, rfl, rfl, free⟩
    · rw [Target.arm_restarts (t := x.withConfig1 s.turn v) free busy restarts] at world
      rw [world]
      exact ⟨rfl, rfl, fun r => by cases r <;> rfl⟩
    · rw [Target.arm_wedges (t := x.withConfig1 s.turn v) free busy wedges] at world
      rw [world]
      exact ⟨rfl, rfl⟩

end Sys2Proof.Machine
end

section
/-! PROOFS of the statement about the target's measurement (spec/42_measurement.md R260 to R267; spec/60_exceptions.md
R320, R337): what each event does to it, one lemma per event and case. -/

namespace Sys2Proof.Machine

/-! ## TRIG and START (R57, R260, R261) -/

/-- TRIG is active exactly while the target is ready (R260). -/
theorem Target.trigLevel_iff {L : Layout} {t : Target} (free : t.wedged = false) :
    t.trigLevel L = !trigEdgeBit L t.r8.config1 ↔ t.phase = .ready := by
  cases e : trigEdgeBit L t.r8.config1 <;> simp [Target.trigLevel, free, e]

theorem Target.trigLevel_of_wedged {L : Layout} {t : Target} (h : t.wedged = true) : t.trigLevel L = t.stuckTrig := by
  simp [Target.trigLevel, h]

/-- The active START edge starts an armed target (R261). -/
theorem Target.startEdge_active {L : Layout} {t : Target} (now : Rat) (h : t.phase = .armed ∨ t.phase = .ready) :
    t.startEdge L now (!startEdgeBit L t.r8.config1) =
      { t with
        r8 := { t.r8 with intStatus := t.r8.intStatus ||| statusStarted L }
        phase := .started
        startTime := now
        coarse := 0
        captured := 0 } := by
  have armed : (t.phase == .armed || t.phase == .ready) = true := by simpa using h
  simp [Target.startEdge, armed]

theorem Target.startEdge_inactive (L : Layout) (now : Rat) (t : Target) :
    t.startEdge L now (startEdgeBit L t.r8.config1) = t := by
  simp [Target.startEdge]

/-! ## STOP (R262) -/

/-- Past the stop mask the active STOP edge is captured (R262). -/
theorem Target.stopEdge_past {p : Params} {now : Rat} {t : Target} (atMask : Bool) (h : t.phase = .started)
    (past : t.stopMask.toNat < t.clockCount p now) :
    t.stopEdge p now (!stopEdgeBit p.layout t.r8.config1) atMask = t.capture p.layout := by
  simp [Target.stopEdge, h, past]

/-- Before it, no STOP edge is (R262). -/
theorem Target.stopEdge_before {p : Params} {now : Rat} {t : Target} (rising atMask : Bool)
    (before : t.clockCount p now < t.stopMask.toNat) : t.stopEdge p now rising atMask = t := by
  simp [Target.stopEdge, Nat.not_lt.mpr before.le, before.ne']

/-- A stop that is not the last one (R262). -/
theorem Target.capture_more {L : Layout} {t : Target} (h : t.captured + 1 < t.numStop L) :
    t.capture L = { t with captured := t.captured + 1 } := by
  simp [Target.capture, h]

/-- The last stop of a measurement of one cycle begins its end (R263). -/
theorem Target.capture_last {L : Layout} {t : Target} (h : t.numStop L ≤ t.captured + 1) (one : t.avgCycles L = 1) :
    t.capture L = { t with
      captured := t.captured + 1
      phase := .ending
      owed := t.owed ||| (statusNewMeas L ||| statusComplete L)
      overrun := false } := by
  simp [Target.capture, Nat.not_lt.mpr h, one, Target.beginEnd]

/-! ## The clock counter's overflow (R264) -/

theorem Target.checkClock_overflow {p : Params} {now : Rat} {t : Target} (h : t.phase = .started)
    (reached : t.clockOvf.toNat ≤ t.clockCount p now) :
    t.checkClock p now = t.beginEnd (statusClockOvf p.layout) true := by
  simp [Target.checkClock, h, reached]

theorem Target.checkClock_before {p : Params} {now : Rat} {t : Target}
    (before : t.clockCount p now < t.clockOvf.toNat) : t.checkClock p now = t := by
  simp [Target.checkClock, Nat.not_le.mpr before]

/-! ## The end of a measurement (R263, R264) -/

/-- While a measurement ends nothing counts and no edge is seen. -/
theorem Target.still_of_ending {t : Target} (h : t.phase = .ending) (p : Params) (now : Rat) :
    t.checkClock p now = t ∧ (∀ ticks, t.advanceCoarse p ticks = t) ∧
      ∀ rising atMask, t.startEdge p.layout now rising = t ∧ t.stopEdge p now rising atMask = t := by
  simp [Target.checkClock, Target.advanceCoarse, Target.startEdge, Target.stopEdge, h]

theorem Target.complete_of_ending {t : Target} (h : t.phase = .ending) (L : Layout) (turn : Turn) :
    t.complete L turn = t.endMeasurement L turn := by
  simp [Target.complete, h]

@[simp] theorem startMeasBit_withoutStartMeas (L : Layout) (v : Byte) :
    startMeasBit L (withoutStartMeas L v) = false := by
  have bit := bitMask_bit L.startMeas L.startMeas
  simp [startMeasBit, withoutStartMeas, bit]

/-- What an undisturbed measurement of mode 1 or 2 has to write when it ends: a completion calibrates, and an overflow
does if FORCE_CAL is 1 (R262 to R264). -/
theorem Target.endResults_of_ending {L : Layout} {t : Target} (h : t.phase = .ending) (calm : t.disturbed = false)
    (mode : measModeCode L t.r8.config1 = 0#2 ∨ measModeCode L t.r8.config1 = 1#2) :
    t.endResults L = resultFile (measModeCode L t.r8.config1 == 1#2) (!t.overrun)
      (!t.overrun || forceCalBit L t.r8.config1) (t.stopsSeen L) t.new24 t.r24 := by
  obtain e | e := mode <;> simp [Target.endResults, Target.completes, Target.calibrates, h, calm, e]

/-! ## The coarse counter (R337) -/

/-- The target with its coarse counter advanced. -/
def Target.counted (ticks : Nat) (t : Target) : Target := { t with coarse := t.coarse + ticks }

/-- The target with COARSE_CNTR_OVF_INT set (R34). -/
def Target.raised (p : Params) (t : Target) : Target :=
  { t with r8 := { t.r8 with intStatus := t.r8.intStatus ||| statusCoarseOvf p.layout } }

/-- The coarse counter of a started measurement: below its limit it only counts; reaching it, or beyond it, ends a
measurement of mode 1 and raises the status bit once in another mode (R34, R264, R337). -/
theorem Target.advanceCoarse_of_started {t : Target} (h : t.phase = .started) (p : Params) (ticks : Nat) :
    t.advanceCoarse p ticks =
      if t.coarse + ticks < t.coarseLimit then t.counted ticks
      else if measModeCode p.layout t.r8.config1 = 0#2 then
        (t.counted ticks).beginEnd (statusCoarseOvf p.layout) true
      else if t.coarse < t.coarseLimit then (t.counted ticks).raiseCoarse p
      else t.counted ticks := by
  unfold Target.advanceCoarse
  rw [if_pos (by simp [h])]
  simp only [beq_iff_eq]
  rfl

/-- However far the coarse counter advances, INT does not move (R101). -/
theorem Target.advanceCoarse_intLevel {t : Target} (h : t.phase = .started) (p : Params) (ticks : Nat) :
    (t.advanceCoarse p ticks).intLevel p = t.intLevel p := by
  have counts : (t.counted ticks).intLevel p = t.intLevel p := rfl
  rw [Target.advanceCoarse_of_started h]
  split
  · exact counts
  · split
    · exact (Target.beginEnd_intLevel ..).trans counts
    · split
      · exact (Target.raiseCoarse_intLevel ..).trans counts
      · exact counts

theorem Target.raiseCoarse_of_still {p : Params} {t : Target} (h : (t.raised p).intLevel p = t.intLevel p) :
    t.raiseCoarse p = t.raised p := if_pos h

theorem Target.raiseCoarse_of_moves {p : Params} {t : Target} (h : (t.raised p).intLevel p ≠ t.intLevel p) :
    t.raiseCoarse p = { t with owed := t.owed ||| statusCoarseOvf p.layout } := if_neg h

theorem and_or_distrib (a b c : Byte) : a &&& (b ||| c) = a &&& b ||| a &&& c := by
  ext i hi
  simp [Bool.and_or_distrib_left]

/-- No other source bit is COARSE_CNTR_OVF_INT (R28, R320). -/
theorem coarseOvf_not_enabled {L : Layout} {mask : Byte} (wf : L.wf = true)
    (clear : mask.getLsbD L.coarseOvfMask.val = false) : statusCoarseOvf L &&& enabledSources L mask = 0#8 := by
  have apart := (Layout.apart wf).status
  simp only [List.nodup_cons, List.mem_cons, not_or] at apart
  obtain ⟨⟨newMeas, -⟩, ⟨clockOvf, -⟩, -⟩ := apart
  have first : statusCoarseOvf L &&& statusNewMeas L = 0#8 :=
    beq_iff_eq.mp ((disjoint11 _ _).trans (decide_eq_true (Ne.symm newMeas)))
  have second : statusCoarseOvf L &&& statusClockOvf L = 0#8 :=
    beq_iff_eq.mp ((disjoint11 _ _).trans (decide_eq_true clockOvf))
  simp only [enabledSources, clear]
  cases mask.getLsbD L.newMeasMask.val <;> cases mask.getLsbD L.clockOvfMask.val <;>
    simp [and_or_distrib, first, second]

/-- Where INT_MASK does not enable it, the bit drives no INT (R34, R320). -/
theorem Target.raised_intLevel {p : Params} {t : Target} (wf : p.layout.wf = true)
    (clear : t.r8.intMask.getLsbD p.layout.coarseOvfMask.val = false) : (t.raised p).intLevel p = t.intLevel p := by
  have pending : (t.raised p).intPending p.layout = t.intPending p.layout := by
    rw [Target.intPending, Target.raised, BitVec.and_comm, and_or_distrib,
      BitVec.and_comm _ (statusCoarseOvf p.layout), coarseOvf_not_enabled wf clear, BitVec.or_zero, BitVec.and_comm]
    rfl
  simp only [Target.intLevel, pending]
  rfl

/-! ## The whole cycle -/

/-- Settles O60: one lemma above per event and case. -/
theorem targetMeasurementCycle : Obligations.TargetMeasurementCycle := by
  intro p turn now t
  refine ⟨Target.trigLevel_iff, Target.trigLevel_of_wedged, fun waiting => ?_, fun started past => ⟨fun more => ?_,
    fun last one => ?_⟩, fun _ before => Target.stopEdge_before _ _ before, fun started reached => ?_,
    fun _ before => Target.checkClock_before before, fun ending => ?_, fun ending => ?_, fun ticks started => ?_⟩
  · refine ⟨?_, ?_, ?_, fun free => ?_, Target.startEdge_inactive p.layout now t⟩ <;>
      rw [Target.startEdge_active now waiting]
    · rfl
    · simp [Target.trigLevel, free, show (Phase.started == Phase.ready) = false from rfl]
  · rw [Target.stopEdge_past turn.atMask started past, Target.capture_more more]
    exact ⟨started, rfl⟩
  · rw [Target.stopEdge_past turn.atMask started past, Target.capture_last last one]
    exact ⟨rfl, rfl⟩
  · rw [Target.checkClock_overflow started reached]
    exact ⟨rfl, rfl⟩
  · obtain ⟨clock, coarse, edges⟩ := Target.still_of_ending ending p now
    exact ⟨by simp [Target.busy, ending], clock, coarse, fun rising => edges rising turn.atMask⟩
  · rw [Target.complete_of_ending ending]
    refine ⟨rfl, rfl, startMeasBit_withoutStartMeas .., rfl, ?_, ?_, ?_, ?_⟩ <;> rintro cut ⟨calm, mode⟩ <;>
      exact (Target.endResults_of_ending ending calm (by simp [mode])).trans (by simp [resultFile, pick, cut, mode])
  · have advance := Target.advanceCoarse_of_started started p ticks
    refine ⟨Target.advanceCoarse_intLevel started p ticks, fun below => advance.trans (if_pos below), fun reached => ?_⟩
    have reached := advance.trans (if_neg (Nat.not_lt.mpr reached))
    refine ⟨fun mode1 => reached.trans (if_pos mode1), fun other => ?_⟩
    have goesOn := reached.trans (if_neg other)
    refine ⟨fun again => goesOn.trans (if_neg (Nat.not_lt.mpr again)), fun first => ?_⟩
    have raises := goesOn.trans (if_pos first)
    have still (h : ((t.counted ticks).raised p).intLevel p = (t.counted ticks).intLevel p) :
        t.advanceCoarse p ticks = (t.counted ticks).raised p := raises.trans (Target.raiseCoarse_of_still h)
    exact ⟨still, fun moves => raises.trans (Target.raiseCoarse_of_moves moves),
      fun wf clear => still (Target.raised_intLevel wf clear)⟩

end Sys2Proof.Machine
end

section
/-! PROOFS of the statements about what a write leaves alone: a store takes effect on the register it addresses; only one
of CONFIG1 reaches further, by arming (spec/20_memory.md R89, R96, R97; spec/42_measurement.md R260). -/

namespace Sys2Proof.Machine

/-- A store to a register with no side effect changes the byte and, while busy, what the measurement in flight will
leave (R89, R96). -/
theorem Target.store_plain {r : Reg8} (status : r ≠ .intStatus) (config1 : r ≠ .config1) (L : Layout) (turn : Turn)
    (v : Byte) (t : Target) : t.store L turn r v =
      { t with
        r8 := t.r8.set r v
        new24 := if t.busy then turn.results else t.new24
        disturbed := t.disturbed || t.busy } := by
  simp [Target.store, status, config1]

/-- A store that cannot arm changes no other 8-bit register, INT_STATUS among them. -/
theorem Target.store_get_of_ne_config1 {r x : Reg8} (config1 : r ≠ .config1) (other : x ≠ r) (L : Layout) (turn : Turn)
    (v : Byte) (t : Target) : (t.store L turn r v).r8.get x = t.r8.get x := by
  by_cases status : x = .intStatus
  · subst status
    rw [Target.store_plain other.symm config1]
    exact File8.get_set_ne _ v other
  · exact Target.store_other L turn r x v t other status

/-- A store that cannot arm changes no result register (R260). -/
theorem Target.store_r24_of_ne_config1 {r : Reg8} (config1 : r ≠ .config1) (L : Layout) (turn : Turn) (v : Byte)
    (t : Target) : (t.store L turn r v).r24 = t.r24 := by
  by_cases status : r = .intStatus
  · subst status
    rfl
  · rw [Target.store_plain status config1]

/-- What WR8 leaves of the world over any transfer: some byte is stored in the register it addresses (R96, R97, R161). -/
theorem execWr8_stores {s t : State} {r : Reg8} {v : Byte} (h : exec (.wr8 r v) s = .next t) :
    ∃ b, t.world = s.stored8 r b := by
  obtain ⟨-, e⟩ := State.attempt_next (show execWr8 r v s = .next t from h)
  obtain ⟨b, -, write⟩ := s.begin.busWr8_any r v
  rw [write] at e
  cases e
  exact ⟨b, rfl⟩

/-- WR8 drives no output line (R89). -/
theorem execWr8_lines {s t : State} {r : Reg8} {v : Byte} (h : exec (.wr8 r v) s = .next t) :
    t.world.lines = s.world.lines := by
  obtain ⟨b, world⟩ := execWr8_stores h
  rw [world]
  exact (s.store8_keeps r b).lines

/-- Settles O27: whatever byte arrives, WR8 is one `store`; one of CONFIG1 may arm, which changes INT_STATUS and the
results only. -/
theorem writeTouchesOnlyAddressed : Obligations.WriteTouchesOnlyAddressed := by
  refine ⟨fun s t r x v answers other unarmed => ?_, fun s t r v answers config1 => ⟨?_, execWr8_lines answers⟩,
    fun s t v => execWr8_lines⟩
  · obtain ⟨b, world⟩ := execWr8_stores answers
    rw [world]
    by_cases config1 : r = .config1
    · exact Target.store_other s.params.layout s.turn r x b s.around.target other (unarmed config1)
    · exact Target.store_get_of_ne_config1 config1 other s.params.layout s.turn b s.around.target
  · obtain ⟨b, world⟩ := execWr8_stores answers
    rw [world]
    exact Target.store_r24_of_ne_config1 config1 s.params.layout s.turn b s.around.target

end Sys2Proof.Machine
end

section
/-! PROOFS of the statements about the encoding (spec/30_encoding.md): frames are read shape by shape of their command
byte (R121 to R127, R140 to R143), host operations code by code (R148), and the two CONFIG bytes field by field
(R131, R132). -/

namespace Sys2Proof.Machine

/-! ## Command bytes and register addresses (R25, R121) -/

/-- Every byte is the command byte of its two flags and its address (R121). -/
theorem commandByte_parts : ∀ c : Byte, commandByte (commandAuto c) (commandWrite c) (commandAddr c) = c := by decide

theorem exists_commandByte (c : Byte) : ∃ auto write a, c = commandByte auto write a :=
  ⟨_, _, _, (commandByte_parts c).symm⟩

/-- The upper two bits of a command byte are its flags (R121). -/
theorem commandByte_flags (auto write : Bool) (a : Addr) :
    (commandByte auto write a).toNat / 64 = 2 * auto.toNat + write.toNat := by
  cases auto <;> cases write <;> revert a <;> decide

/-- The lower six bits of a command byte are its address (R121). -/
theorem commandByte_addr (auto write : Bool) (a : Addr) : (commandByte auto write a).toNat % 64 = a.toNat := by
  cases auto <;> cases write <;> revert a <;> decide

theorem regOf8_isSome_iff {a : Addr} : (regOf8 a).isSome = true ↔ a.toNat ≤ 0x09 := by
  unfold regOf8
  split <;> grind

theorem regOf24_isSome_iff {a : Addr} : (regOf24 a).isSome = true ↔ 0x10 ≤ a.toNat ∧ a.toNat ≤ 0x1C := by
  unfold regOf24
  split <;> grind

theorem regOfPair_isSome_iff {a : Addr} :
    (regOfPair a).isSome = true ↔ a.toNat = 4 ∨ a.toNat = 6 ∨ a.toNat = 8 := by
  unfold regOfPair
  split <;> grind

/-- The addresses of no register are those that R25 and R141 reserve. -/
theorem addrReserved_iff {a : Addr} :
    addrReserved a = true ↔ (0x0A ≤ a.toNat ∧ a.toNat ≤ 0x0F) ∨ 0x1D ≤ a.toNat := by
  have absent : addrReserved a = true ↔ ¬(regOf8 a).isSome = true ∧ ¬(regOf24 a).isSome = true := by
    simp [addrReserved]
  rw [absent, regOf8_isSome_iff, regOf24_isSome_iff]
  omega

@[simp] theorem addrReserved_regAddr8 (r : Reg8) : addrReserved (regAddr8 r) = false := by simp [addrReserved]

@[simp] theorem addrReserved_regAddr24 (r : Reg24) : addrReserved (regAddr24 r) = false := by simp [addrReserved]

@[simp] theorem addrReserved_regAddrPair (p : Pair) : addrReserved (regAddrPair p) = false := by simp [addrReserved]

@[simp] theorem regOf24_regAddrPair (p : Pair) : regOf24 (regAddrPair p) = none := by cases p <;> rfl

/-! ## Frames, one rule per pair of flags (R122 to R126, R140 to R143) -/

/-- A frame to an address of no register (R141). -/
theorem decode_frame_reserved {auto write : Bool} {a : Addr} (reserved : addrReserved a = true) (data : List Byte) :
    decode (.frame (commandByte auto write a :: data)) = .error .reservedAddress := by
  simp [decode, decodeFrame, reserved]

/-- A write frame to a result register (R142). -/
theorem decode_frame_resultWrite {auto : Bool} {a : Addr} (result : (regOf24 a).isSome = true) (data : List Byte) :
    decode (.frame (commandByte auto true a :: data)) = .error .resultWrite := by
  simp [decode, decodeFrame, addrReserved, Option.isNone_eq_false_iff.mpr result, result]

theorem decode_frame_plainRead {a : Addr} (named : addrReserved a = false) (data : List Byte) :
    decode (.frame (commandByte false false a :: data)) = decodePlainRead a data := by
  simp [decode, decodeFrame, named]

theorem decode_frame_plainWrite {a : Addr} (named : addrReserved a = false) (plain : regOf24 a = none)
    (data : List Byte) : decode (.frame (commandByte false true a :: data)) = decodePlainWrite a data := by
  simp [decode, decodeFrame, named, plain]

theorem decode_frame_autoRead {a : Addr} (named : addrReserved a = false) (data : List Byte) :
    decode (.frame (commandByte true false a :: data)) = decodeAutoRead a data := by
  simp [decode, decodeFrame, named]

theorem decode_frame_autoWrite {a : Addr} (named : addrReserved a = false) (plain : regOf24 a = none)
    (data : List Byte) : decode (.frame (commandByte true true a :: data)) = decodeAutoWrite a data := by
  simp [decode, decodeFrame, named, plain]

/-! ## The rows of the table of legal frames (R140), whatever the padding -/

theorem decode_rd8 (r : Reg8) (d : Byte) :
    decode (.frame [commandByte false false (regAddr8 r), d]) = .ok (.rd8 r) := by
  rw [decode_frame_plainRead (addrReserved_regAddr8 r)]
  simp [decodePlainRead, shapeOf]

theorem decode_wr8 (r : Reg8) (v : Byte) :
    decode (.frame [commandByte false true (regAddr8 r), v]) = .ok (.wr8 r v) := by
  rw [decode_frame_plainWrite (addrReserved_regAddr8 r) (regOf24_regAddr8 r)]
  simp [decodePlainWrite, shapeOf]

theorem decode_rd16 (p : Pair) (d e : Byte) :
    decode (.frame [commandByte true false (regAddrPair p), d, e]) = .ok (.rd16 p) := by
  rw [decode_frame_autoRead (addrReserved_regAddrPair p)]
  simp [decodeAutoRead, shapeOf]

theorem decode_wr16 (p : Pair) (h l : Byte) :
    decode (.frame [commandByte true true (regAddrPair p), h, l]) = .ok (.wr16 p (joinHalf h l)) := by
  rw [decode_frame_autoWrite (addrReserved_regAddrPair p) (regOf24_regAddrPair p)]
  simp [decodeAutoWrite, shapeOf]

theorem decode_rd24 (r : Reg24) (d e f : Byte) :
    decode (.frame [commandByte false false (regAddr24 r), d, e, f]) = .ok (.rd24 r) := by
  rw [decode_frame_plainRead (addrReserved_regAddr24 r)]
  simp [decodePlainRead, shapeOf]

theorem decode_rdall8 {data : List Byte} (len : data.length = 10) :
    decode (.frame (commandByte true false 0x00#6 :: data)) = .ok .rdall8 := by
  rw [decode_frame_autoRead (by decide)]
  simp [decodeAutoRead, len]

theorem decode_rdall24 {data : List Byte} (len : data.length = 39) :
    decode (.frame (commandByte true false 0x10#6 :: data)) = .ok .rdall24 := by
  rw [decode_frame_autoRead (by decide)]
  simp [decodeAutoRead, len]

/-! ## What a frame that decodes looks like (R140) -/

/-- A shape stands for an instruction only where its address names a register. -/
theorem isSome_of_shapeOf_map {α : Type} {o : Option α} {f : α → Instr} {i : Instr}
    (h : shapeOf (o.map f) = .ok i) : o.isSome = true := by
  cases o with
  | none => cases h
  | some r => rfl

theorem decodePlainRead_ok {a : Addr} {data : List Byte} {i : Instr} (h : decodePlainRead a data = .ok i) :
    (data.length = 1 ∧ a.toNat ≤ 0x09) ∨ (data.length = 3 ∧ 0x10 ≤ a.toNat ∧ a.toNat ≤ 0x1C) := by
  unfold decodePlainRead at h
  split at h
  · exact .inl ⟨rfl, regOf8_isSome_iff.mp (isSome_of_shapeOf_map h)⟩
  · exact .inr ⟨rfl, regOf24_isSome_iff.mp (isSome_of_shapeOf_map h)⟩
  · cases h

theorem decodePlainWrite_ok {a : Addr} {data : List Byte} {i : Instr} (h : decodePlainWrite a data = .ok i) :
    data.length = 1 ∧ a.toNat ≤ 0x09 := by
  unfold decodePlainWrite at h
  split at h
  · exact ⟨rfl, regOf8_isSome_iff.mp (isSome_of_shapeOf_map h)⟩
  · cases h

theorem decodeAutoRead_ok {a : Addr} {data : List Byte} {i : Instr} (h : decodeAutoRead a data = .ok i) :
    (data.length = 2 ∧ (a.toNat = 4 ∨ a.toNat = 6 ∨ a.toNat = 8)) ∨ (data.length = 10 ∧ a = 0x00#6) ∨
      (data.length = 39 ∧ a = 0x10#6) := by
  unfold decodeAutoRead at h
  split at h
  next pair => exact .inl ⟨pair, regOfPair_isSome_iff.mp (isSome_of_shapeOf_map h)⟩
  split at h
  next block => exact .inr (.inl block)
  split at h
  next block => exact .inr (.inr block)
  cases h

theorem decodeAutoWrite_ok {a : Addr} {data : List Byte} {i : Instr} (h : decodeAutoWrite a data = .ok i) :
    data.length = 2 ∧ (a.toNat = 4 ∨ a.toNat = 6 ∨ a.toNat = 8) := by
  unfold decodeAutoWrite at h
  split at h
  · exact ⟨rfl, regOfPair_isSome_iff.mp (isSome_of_shapeOf_map h)⟩
  · cases h

/-- A frame that decodes is addressed to a register, a result register only to read it (R141, R142). -/
theorem named_of_decode_ok {auto write : Bool} {a : Addr} {data : List Byte} {i : Instr}
    (h : decode (.frame (commandByte auto write a :: data)) = .ok i) :
    addrReserved a = false ∧ (write = true → regOf24 a = none) := by
  refine ⟨Bool.eq_false_iff.mpr fun reserved => ?_, ?_⟩
  · rw [decode_frame_reserved reserved] at h
    cases h
  · rintro rfl
    refine Option.not_isSome_iff_eq_none.mp fun result => ?_
    rw [decode_frame_resultWrite result] at h
    cases h

/-- Settles O2: the rows one by one, then the command byte taken apart into its flags and address. -/
theorem legalFramesAreTheTable : Obligations.LegalFramesAreTheTable := by
  refine ⟨decode_rd8, decode_wr8, decode_rd16, decode_wr16, decode_rd24, fun _ => decode_rdall8,
    fun _ => decode_rdall24, fun bytes i decoded => ?_⟩
  cases bytes with
  | nil => cases decoded
  | cons c data =>
    obtain ⟨auto, write, a, rfl⟩ := exists_commandByte c
    obtain ⟨named, plain⟩ := named_of_decode_ok decoded
    refine ⟨_, data, rfl, ?_⟩
    simp only [List.length_cons, commandByte_flags, commandByte_addr]
    match auto, write with
    | false, false =>
      obtain ⟨len, addr⟩ | ⟨len, addr⟩ := decodePlainRead_ok ((decode_frame_plainRead named data).symm.trans decoded)
      · simp [len, addr]
      · simp [len, addr]
    | false, true =>
      obtain ⟨len, addr⟩ := decodePlainWrite_ok ((decode_frame_plainWrite named (plain rfl) data).symm.trans decoded)
      simp [len, addr]
    | true, true =>
      obtain ⟨len, addr⟩ := decodeAutoWrite_ok ((decode_frame_autoWrite named (plain rfl) data).symm.trans decoded)
      simp [len, addr]
    | true, false =>
      obtain ⟨len, addr⟩ | ⟨len, rfl⟩ | ⟨len, rfl⟩ :=
        decodeAutoRead_ok ((decode_frame_autoRead named data).symm.trans decoded)
      · simp [len, addr]
      · simp [len, show commandByte true false 0x00#6 = 0x80#8 from rfl]
      · simp [len, show commandByte true false 0x10#6 = 0x90#8 from rfl]

/-- Settles O3: the decoder looks at the address before the length. -/
theorem reservedAndResultFramesRefused : Obligations.ReservedAndResultFramesRefused := by
  intro c data
  obtain ⟨auto, write, a, rfl⟩ := exists_commandByte c
  rw [commandByte_flags, commandByte_addr]
  refine ⟨fun reserved => decode_frame_reserved (addrReserved_iff.mpr reserved) data, fun isWrite low high => ?_⟩
  cases write with
  | false => cases auto <;> simp at isWrite
  | true => exact decode_frame_resultWrite (regOf24_isSome_iff.mpr ⟨low, high⟩) data

/-- Settles O4: each word is closed, so the decoder runs on it. -/
theorem specWordsDecode : Obligations.SpecWordsDecode := by
  unfold Obligations.SpecWordsDecode
  decide

/-! ## Host operations (R148) -/

theorem asNat_natCast (n : Nat) : asNat (.int n) = .ok n := by simp [asNat]

/-- CONFIGURE's operands are read back, a count and a time alike (R202). -/
theorem decodeConfigure_configureOperands (q : ConfigRequest) :
    decodeConfigure (configureOperands q) = .ok (.configure q) := by
  obtain ⟨_, _, _, _, _, _, _, _, _, overflow⟩ := q
  cases overflow <;> rfl

theorem decodeRegWrite_operands (name : RegName) (value : Nat) :
    decodeRegWrite [.name name, .int value] = .ok (.regWrite name value) := by
  simp only [decodeRegWrite, asReg, asNat_natCast]
  rfl

/-- Settles O1: a frame is a row of the table, a host operation the arm of its code. -/
theorem decodeEncodeRoundTrip : Obligations.DecodeEncodeRoundTrip := by
  intro i
  cases i with
  | rd8 r => exact decode_rd8 r _
  | wr8 r v => exact decode_wr8 r v
  | rd16 p => exact decode_rd16 p _ _
  | wr16 p v => exact (decode_wr16 p _ _).trans (by rw [joinHalf_bytes])
  | rd24 r => exact decode_rd24 r _ _ _
  | rdall8 => exact decode_rdall8 rfl
  | rdall24 => exact decode_rdall24 rfl
  | configure request => exact decodeConfigure_configureOperands request
  | regWrite name value => exact decodeRegWrite_operands name value
  | openBus | setClockSpeed requested force | powerOff | powerOn | configureRetain | measure | clearStatus force
  | readRegs8 | readRegs24 | computeTofs | cleanup | regRead name | hardRecover | reservedHopF => rfl

/-- Settles O15: the reserved code has a refusal of its own, before anything else is asked. -/
theorem reservedHopRefused : Obligations.ReservedHopRefused := fun s =>
  s.attempt_some .reservedHop fun s => .going s

/-! ## The CONFIG bytes, field by field (R131, R132) -/

theorem unionOf_bit (fields : List Byte) (k : Nat) :
    (unionOf fields).getLsbD k = fields.any fun m => m.getLsbD k := by
  induction fields with
  | nil => simp [unionOf]
  | cons m rest ih =>
    rw [List.any_cons, ← ih]
    exact BitVec.getLsbD_or

/-- A byte has no bit outside a mask that covers each of its bits. -/
theorem outside_eq_zero {v mask : Byte} (h : ∀ k : Fin 8, v.getLsbD k.val = true → mask.getLsbD k.val = true) :
    v &&& ~~~mask = 0x00#8 := by
  ext k hk
  have covered := h ⟨k, hk⟩
  simp only [BitVec.getLsbD_eq_getElem hk] at covered
  simp only [BitVec.getElem_and, BitVec.getElem_not, BitVec.getElem_zero]
  grind

/-- A bit of a field of `w` bits shifted up to `p` is at one of the field's places. -/
theorem place_of_shifted {w : Nat} {v : BitVec w} {p k : Nat} (h : (decide (p ≤ k) && v.getLsbD (k - p)) = true) :
    p ≤ k ∧ k < p + w := by
  by_contra outside
  rw [shifted_outside v p k (by omega)] at h
  cases h

/-- A field of `w` bits from `p` up is read off its bits. -/
theorem extractLsb'_eq_of_bits {w p : Nat} {v : Byte} {field : BitVec w}
    (h : ∀ k < w, v.getLsbD (p + k) = field.getLsbD k) : v.extractLsb' p w = field := by
  ext k hk
  rw [BitVec.getElem_extractLsb', h k hk, BitVec.getLsbD_eq_getElem]

/-- Off MEAS_MODE's two places CONFIG1 holds the four flags only (R131). -/
theorem config1Of_bit_off_mode (L : Layout) (c : Cfg) {k : Fin 8} (low : k.val ≠ L.measMode.val)
    (high : k.val ≠ L.measMode.val + 1) : (config1Of L c).getLsbD k.val =
      (c.forceCal && decide (k.val = L.forceCal.val) || c.trigFalling && decide (k.val = L.trigEdge.val) ||
        c.stopFalling && decide (k.val = L.stopEdge.val) || c.startFalling && decide (k.val = L.startEdge.val)) := by
  rw [config1Of_bit, shifted_outside (measModeOf c.measMode) _ _ (by omega), Bool.or_false]

/-- The one-bit fields of CONFIG1 (R131): no two share a place, and none has one of MEAS_MODE's. -/
theorem config1Of_flags {L : Layout} (wf : L.wf = true) (c : Cfg) :
    forceCalBit L (config1Of L c) = c.forceCal ∧ parityBit L (config1Of L c) = false ∧
    trigEdgeBit L (config1Of L c) = c.trigFalling ∧ stopEdgeBit L (config1Of L c) = c.stopFalling ∧
    startEdgeBit L (config1Of L c) = c.startFalling ∧ startMeasBit L (config1Of L c) = false := by
  have apart := (Layout.apart wf).config1
  simp only [List.nodup_cons, List.mem_cons, List.not_mem_nil, or_false, not_or, List.nodup_nil] at apart
  simp only [forceCalBit, parityBit, trigEdgeBit, stopEdgeBit, startEdgeBit, startMeasBit]
  refine ⟨?_, ?_, ?_, ?_, ?_, ?_⟩
  all_goals
    rw [config1Of_bit_off_mode L c (by grind) (by grind)]
    grind

theorem measModeCode_config1Of {L : Layout} (wf : L.wf = true) (c : Cfg) :
    measModeCode L (config1Of L c) = measModeOf c.measMode := by
  have inside := (Layout.apart wf).inside.1
  refine extractLsb'_eq_of_bits fun k hk => ?_
  rw [config1Of_bit L c ⟨L.measMode.val + k, by omega⟩]
  have apart := (Layout.apart wf).config1
  simp only [List.nodup_cons, List.mem_cons, List.not_mem_nil, or_false, not_or, List.nodup_nil] at apart
  grind

/-- Every bit of CONFIG1 that is set is one of a field other than PARITY_EN (R131, R41). -/
theorem config1Of_outside {L : Layout} (wf : L.wf = true) (c : Cfg) :
    config1Of L c &&& ~~~ sentBits L .config1 = 0x00#8 := by
  have parity := (config1Of_flags wf c).2.1
  refine outside_eq_zero fun k set => ?_
  have other : k.val ≠ L.parityEn.val := fun same => by rw [parityBit, ← same, set] at parity; cases parity
  rw [config1Of_bit] at set
  have mode := place_of_shifted (v := measModeOf c.measMode) (p := L.measMode.val) (k := k.val)
  simp only [sentBits, BitVec.getLsbD_and, BitVec.getLsbD_not, unionOf_bit, Layout.config1Fields, List.any_cons,
    List.any_nil, bitMask_bit, bits2_bit]
  grind

/-- The three fields of CONFIG2 (R132): no two share a place. -/
theorem config2Of_fields {L : Layout} (wf : L.wf = true) (c : Cfg) :
    tierCode L (config2Of L c) = tierOf c.calPeriods ∧ avgCode L (config2Of L c) = logAvg c.avgCycles ∧
    stopCode L (config2Of L c) = BitVec.ofNat 3 (c.numStop - 1) := by
  obtain ⟨-, tier, avg, stop⟩ := (Layout.apart wf).inside
  obtain ⟨tierAvg, tierStop, avgStop⟩ := (Layout.apart wf).config2
  refine ⟨extractLsb'_eq_of_bits fun k hk => ?_, extractLsb'_eq_of_bits fun k hk => ?_,
    extractLsb'_eq_of_bits fun k hk => ?_⟩
  · rw [config2Of_bit L c ⟨L.tier.val + k, by omega⟩,
      shifted_outside (logAvg c.avgCycles) _ _ (by simp only; omega),
      shifted_outside (BitVec.ofNat 3 (c.numStop - 1)) _ _ (by simp only; omega)]
    simp
  · rw [config2Of_bit L c ⟨L.avg.val + k, by omega⟩,
      shifted_outside (tierOf c.calPeriods) _ _ (by simp only; omega),
      shifted_outside (BitVec.ofNat 3 (c.numStop - 1)) _ _ (by simp only; omega)]
    simp
  · rw [config2Of_bit L c ⟨L.numStop.val + k, by omega⟩,
      shifted_outside (tierOf c.calPeriods) _ _ (by simp only; omega),
      shifted_outside (logAvg c.avgCycles) _ _ (by simp only; omega)]
    simp

/-- Every bit of CONFIG2 that is set is one of a field (R132). -/
theorem config2Of_outside (L : Layout) (c : Cfg) : config2Of L c &&& ~~~ sentBits L .config2 = 0x00#8 := by
  refine outside_eq_zero fun k set => ?_
  rw [config2Of_bit, Bool.or_eq_true, Bool.or_eq_true] at set
  simp only [sentBits, unionOf_bit, Layout.config2Fields, List.any_cons, List.any_nil, bits2_bit, bits3_bit,
    Bool.or_eq_true, Bool.and_eq_true, decide_eq_true_eq]
  obtain (tier | avg) | stop := set
  · have := place_of_shifted tier; omega
  · have := place_of_shifted avg; omega
  · have := place_of_shifted stop; omega

/-! ## The codes of a legal record (R31, R33) -/

theorem measModeOf_toNat {mode : Nat} (h : mode = 1 ∨ mode = 2) : (measModeOf mode).toNat + 1 = mode := by
  obtain rfl | rfl := h <;> rfl

/-- The four tiers have the four codes, in ascending order (R33). -/
theorem tierOf_eq_iff {periods : Nat} (h : periods = 2 ∨ periods = 10 ∨ periods = 20 ∨ periods = 40) :
    (tierOf periods = 0#2 ↔ periods = 2) ∧ (tierOf periods = 1#2 ↔ periods = 10) ∧
    (tierOf periods = 2#2 ↔ periods = 20) ∧ (tierOf periods = 3#2 ↔ periods = 40) := by
  obtain rfl | rfl | rfl | rfl := h <;> decide

theorem cyclesOfCode_logAvg {cycles : Nat} (h : cycles ∈ [1, 2, 4, 8, 16, 32, 64, 128]) :
    cyclesOfCode (logAvg cycles) = cycles := by
  revert cycles
  decide

theorem stopCount_toNat {stops : Nat} (low : 1 ≤ stops) (high : stops ≤ 5) :
    (BitVec.ofNat 3 (stops - 1)).toNat + 1 = stops := by
  rw [BitVec.toNat_ofNat]
  omega

/-- What a legal record says of the values that have codes (R45). -/
theorem Cfg.coded_of_legal {c : Cfg} (h : c.legal = true) : (c.measMode = 1 ∨ c.measMode = 2) ∧
    (c.calPeriods = 2 ∨ c.calPeriods = 10 ∨ c.calPeriods = 20 ∨ c.calPeriods = 40) ∧
    c.avgCycles ∈ [1, 2, 4, 8, 16, 32, 64, 128] ∧ 1 ≤ c.numStop ∧ c.numStop ≤ 5 := by
  simp only [Cfg.legal, Bool.and_eq_true, Bool.or_eq_true, beq_iff_eq, decide_eq_true_eq, or_assoc] at h
  obtain ⟨⟨⟨⟨⟨mode, cal⟩, avg⟩, low⟩, high⟩, -⟩ := h
  exact ⟨mode, cal, by simpa using avg, low, high⟩

/-- Settles O41: each field is read back as its code, and the code of a legal value stands for it. -/
theorem configBytesCarryFields : Obligations.ConfigBytesCarryFields := by
  intro L c wf legal
  obtain ⟨forceCal, parity, trigEdge, stopEdge, startEdge, startMeas⟩ := config1Of_flags wf c
  obtain ⟨tier, avg, stop⟩ := config2Of_fields wf c
  obtain ⟨mode, cal, cycles, low, high⟩ := Cfg.coded_of_legal legal
  rw [measModeCode_config1Of wf c, tier, avg, stop]
  obtain ⟨tier2, tier10, tier20, tier40⟩ := tierOf_eq_iff cal
  exact ⟨forceCal, parity, trigEdge, stopEdge, startEdge, measModeOf_toNat mode, startMeas, config1Of_outside wf c,
    tier2, tier10, tier20, tier40, cyclesOfCode_logAvg cycles, stopCount_toNat low high, config2Of_outside L c⟩

end Sys2Proof.Machine
end

section
/-! PROOFS of the statements about the bus transactions and the register access operations
(spec/40_bus_transactions.md): each operation is one transfer, so what it answers is what the rule of its transfer says
(`State.busRd8_any` and its like), followed by what it yields and what the mirror learns. -/

namespace Sys2Proof.Machine

/-- Where a register may be accessed, an operation that asks for no more runs its body (R150, R190). -/
theorem State.attempt_of_accessible {s : State} (ready : s.Accessible) (body : State → Run) :
    s.attempt s.accessRefusal body = (body s.begin).outcome := by
  rw [State.accessRefusal_none.mpr ready, State.attempt_none]

/-! ## Single registers and pairs (R160 to R164) -/

/-- Settles O16: RD8 is one read of one register, its second byte yielded. -/
theorem rd8YieldsRegister : Obligations.Rd8YieldsRegister := by
  intro s r ready
  obtain ⟨b, v, reads, read⟩ := s.begin.busRd8_any r
  refine ⟨b, v, reads, ?_⟩
  show execRd8 r s = _
  rw [execRd8, State.attempt_of_accessible ready, read, commandByte_rd8]
  rfl

/-- Settles O17: WR8 is one store of the byte that arrives, and only INT_STATUS does not hold what is stored. -/
theorem wr8StoresByte : Obligations.Wr8StoresByte := by
  intro s r v ready
  obtain ⟨b, sent, write⟩ := s.begin.busWr8_any r v
  refine ⟨b, sent, ?_, Target.store_get s.params.layout s.turn r b s.around.target⟩
  show execWr8 r v s = _
  rw [execWr8, State.attempt_of_accessible ready, write, commandByte_wr8]
  rfl

/-- Settles O18: RD16 is one read of the two registers of the pair. -/
theorem rd16YieldsPair : Obligations.Rd16YieldsPair := by
  intro s p ready
  obtain ⟨b, v, reads, read⟩ := s.begin.busRd16_any p
  refine ⟨b, v, reads, ?_⟩
  show execRd16 p s = _
  rw [execRd16, State.attempt_of_accessible ready, read, commandByte_rd16]
  rfl

/-- Settles O19: WR16 is two stores, neither of which has an effect beyond its register. -/
theorem wr16StoresPair : Obligations.Wr16StoresPair := by
  intro s p v ready
  obtain ⟨b, sent, write⟩ := s.begin.busWr16_any p v
  refine ⟨b, sent, ?_, World.store16_registers s.params.layout s.turn p b s.around⟩
  show execWr16 p v s = _
  rw [execWr16, State.attempt_of_accessible ready, write, commandByte_wr16]
  rfl

/-- A target that is not busy shows each result register at its value (R88). -/
theorem Target.readout_of_idle {t : Target} (idle : t.busy = false) (L : Layout) (turn : Turn) (r : Reg24) :
    t.readout L turn r = t.r24.get r := by
  simp [Target.readout, idle]

/-- A busy target shows a result register at one of three values (R101, U9). -/
theorem Target.readout_of_busy {t : Target} (busy : t.busy = true) (L : Layout) (turn : Turn) (r : Reg24) :
    t.readout L turn r = t.old24.get r ∨ t.readout L turn r = t.r24.get r ∨
      t.readout L turn r = (t.landed L).get r := by
  simp only [Target.readout, busy, if_true]
  cases turn.seen.get r with
  | before => exact .inl rfl
  | held => exact .inr (.inl rfl)
  | after => exact .inr (.inr rfl)

/-- Settles O20: RD24 is one read of one result register, which shows its value or, while busy, one of three. -/
theorem rd24YieldsResult : Obligations.Rd24YieldsResult := by
  intro s r ready
  obtain ⟨b, v, reads, read⟩ := s.begin.busRd24_any r
  refine ⟨b, v, fun clean => ?_, ?_⟩
  · obtain ⟨zero, rfl⟩ := reads clean
    exact ⟨zero, fun idle => Target.readout_of_idle idle .., fun busy => Target.readout_of_busy busy ..⟩
  · show execRd24 r s = _
    rw [execRd24, State.attempt_of_accessible ready, read, commandByte_rd24]
    rfl

/-! ## A value written and then read (R167) -/

/-- After a clean WR8 a register may still be accessed, and the byte sent is stored (R161). -/
theorem execWr8_leaves {s t : State} {r : Reg8} {v : Byte} (ready : s.Accessible) (clean : s.turn.noise = .clean)
    (wrote : exec (.wr8 r v) s = .next t) : t.Accessible ∧ t.params = s.params ∧ t.world = s.stored8 r v := by
  obtain ⟨b, sent, stores, -⟩ := wr8StoresByte s r v ready
  rw [stores, sent clean] at wrote
  cases wrote
  exact ⟨ready, rfl, rfl⟩

/-- After a clean WR16 a register may still be accessed, and the pair sent is stored (R163). -/
theorem execWr16_leaves {s t : State} {p : Pair} {v : Half} (ready : s.Accessible) (clean : s.turn.noise = .clean)
    (wrote : exec (.wr16 p v) s = .next t) : t.Accessible ∧ t.world = s.stored16 p v := by
  obtain ⟨b, sent, stores, -⟩ := wr16StoresPair s p v ready
  rw [stores, sent clean] at wrote
  cases wrote
  exact ⟨ready, rfl⟩

/-- Both bytes of a stored pair are held (R96). -/
theorem State.stored16_get (s : State) (p : Pair) (v : Half) :
    (s.stored16 p v).target.r8.get (pairHi p) = hiByte v ∧ (s.stored16 p v).target.r8.get (pairLo p) = loByte v := by
  have distinct : pairHi p ≠ pairLo p := by cases p <;> decide
  obtain ⟨r8, -⟩ := World.store16_registers s.params.layout s.turn p v s.around
  rw [State.stored16, r8, File8.get_set_ne _ _ distinct, File8.get_set_same, File8.get_set_same]
  exact ⟨rfl, rfl⟩

/-- Settles O23: the write leaves the value in the register, no turn in between moves more of it than START_MEAS, and
the read shows the rest. -/
theorem writeThenReadYieldsWritten : Obligations.WriteThenReadYieldsWritten := by
  refine ⟨fun s t r v ready status _ clean wrote cleanRead => ?_, fun s t p v ready clean wrote cleanRead => ?_⟩
  · obtain ⟨ready', params, world⟩ := execWr8_leaves ready clean wrote
    have holds : t.world.target.r8.get r = v := by
      rw [world]
      exact Target.store_get s.params.layout s.turn r v s.around.target status
    obtain ⟨_, x, reads, answers⟩ := rd8YieldsRegister t r ready'
    obtain ⟨-, shows⟩ := reads cleanRead
    have drifts := t.around_follows.target
    refine ⟨_, x, answers, rfl, ?_⟩
    rw [params] at shows drifts
    split
    · rename_i config1
      subst config1
      exact shows.config1.trans (drifts.config1.trans (congrArg _ holds))
    · rename_i config1
      exact (shows.other status config1).trans ((drifts.keeps r config1 status).trans holds)
  · obtain ⟨ready', world⟩ := execWr16_leaves ready clean wrote
    obtain ⟨_, x, reads, answers⟩ := rd16YieldsPair t p ready'
    obtain ⟨⟨hi1, hiS⟩, lo1, loS⟩ := pair_ne p
    obtain ⟨hi, lo⟩ := s.stored16_get p v
    have keeps := t.around_follows.target.keeps
    have same : x = v := by
      rw [(reads cleanRead).2, keeps _ hi1 hiS, keeps _ lo1 loS, world, hi, lo, joinHalf_bytes]
    exact ⟨_, answers, congrArg Yield.half same⟩

/-! ## Bulk reads (R165, R166) -/

/-- What a bulk read of the bus leaves is what the statements say of one. -/
theorem World.BulkRead.leaves {s : State} {w : World} (h : World.BulkRead s.params s.turn s.around w) :
    s.BulkReadLeaves w where
  lines := h.follows.lines.trans s.around_follows.lines
  time := h.follows.time
  pointer := h.pointer
  quiet gapless := h.quiet (.inl gapless)
  corrupt noise := h.quiet (.inr noise)
  idle idle := by
    obtain ⟨busy, r8, r24⟩ := h.follows.rests idle
    exact ⟨r8, r24, busy⟩
  keeps := h.follows.target.keeps
  config1 := h.follows.target.config1

/-- Ten bytes are the entries of the container they fill, in address order (R130). -/
theorem toList_file8OfBytes : ∀ {data : List Byte}, data.length = 10 → (file8OfBytes data).toList = data
  | [_, _, _, _, _, _, _, _, _, _], rfl => rfl

/-- Registers that show their values fill the container with those of a target that is not busy (R88, R130). -/
theorem file8OfBytes_of_idle {L : Layout} {t : Target} {data : List Byte} (idle : t.busy = false)
    (shows : ∀ r, t.Shows8 L r ((file8OfBytes data).get r)) : file8OfBytes data = t.r8 :=
  File8.ext_get fun r => (shows r).1 idle

/-- Settles O21: RDALL8 is one bulk read, each register as it stands when its turn comes. -/
theorem rdall8YieldsBlock : Obligations.Rdall8YieldsBlock := by
  intro s ready
  obtain ⟨rx, w, len, bulk, shown, read⟩ := s.begin.busRdAll8_any
  refine ⟨rx, w, len, fun clean => ?_, ?_, World.BulkRead.leaves (s := s) bulk⟩
  · obtain ⟨zero, shows⟩ := shown clean
    refine ⟨zero, fun idle => ?_, fun r => (shows r).2.2, (shows .config1).2.1 rfl⟩
    obtain ⟨c, data, rfl⟩ := List.exists_cons_of_length_eq_add_one len
    have block : file8OfBytes data = s.around.target.r8 := file8OfBytes_of_idle idle shows
    rw [← block, toList_file8OfBytes (Nat.succ.inj len)]
    exact congrArg (· :: data) zero
  · show execRdall8 s = _
    rw [execRdall8, State.attempt_of_accessible ready, read]
    rfl

/-- The bytes of the thirteen registers of a target that is not busy fill the container with its values (R130). -/
theorem file24OfBytes_of_block {f : File24 Word24} {rx : List Byte} (block : rx = 0x00#8 :: f.toList.flatMap bytes24) :
    file24OfBytes rx.tail = f := by
  rw [block, List.tail_cons, file24OfBytes_flatMap]

/-- Settles O22: RDALL24 is one bulk read; nothing moves a result register of a target that is not busy. -/
theorem rdall24YieldsBlock : Obligations.Rdall24YieldsBlock := by
  intro s ready
  obtain ⟨rx, w, len, bulk, shown, read⟩ := s.begin.busRdAll24_any
  refine ⟨rx, w, len, fun clean idle => ?_, ?_, World.BulkRead.leaves (s := s) bulk⟩
  · have block := (shown clean).2 idle
    exact ⟨block, file24OfBytes_of_block block⟩
  · show execRdall24 s = _
    rw [execRdall24, State.attempt_of_accessible ready, read]
    rfl

/-! ## The mirror filled from a bulk read (R168, R169) -/

/-- Settles O28: READ_REGS8 is one RDALL8, whose bytes the mirror learns; those of a pair are two neighbours. -/
theorem readRegs8FillsMirror : Obligations.ReadRegs8FillsMirror := by
  intro s ready
  obtain ⟨rx, w, len, bulk, shown, read⟩ := s.begin.busRdAll8_any
  refine ⟨rx, w, len, fun clean idle => file8OfBytes_of_idle idle (shown clean).2, ?_,
    World.BulkRead.leaves (s := s) bulk⟩
  show execReadRegs8 s = _
  rw [execReadRegs8, State.attempt_of_accessible ready, State.readRegs8, read]
  obtain ⟨c, data, rfl⟩ := List.exists_cons_of_length_eq_add_one len
  rfl

/-- Settles O29: READ_REGS24 is one RDALL24, whose values the mirror learns. -/
theorem readRegs24FillsMirror : Obligations.ReadRegs24FillsMirror := by
  intro s ready
  obtain ⟨rx, w, len, bulk, shown, read⟩ := s.begin.busRdAll24_any
  refine ⟨rx, w, len, fun clean idle => file24OfBytes_of_block ((shown clean).2 idle), ?_,
    World.BulkRead.leaves (s := s) bulk⟩
  show execReadRegs24 s = _
  rw [execReadRegs24, State.attempt_of_accessible ready, State.readRegs24, read]
  rfl

/-! ## One register and its slot (R170, R171) -/

/-- The 16-bit slots once `m` are the byte slots and that of `r` was learnt: the one of the pair `r` belongs to, if any,
is recomputed (R44). -/
def State.pairSlotsAfter (s : State) (m : File8 (Slot 8)) (r : Reg8) : FilePair (Slot 16) :=
  match pairOf r with
  | some p => s.mirror16.set p (joinSlots (m.get (pairHi p)) (m.get (pairLo p)))
  | none => s.mirror16

/-- Learning a byte fills its slot and recomputes that of its pair (R42 to R44). -/
theorem State.learn8_eq (s : State) (r : Reg8) (v : Byte) : s.learn8 r v =
    { s with
      mirror8 := s.mirror8.set r (Slot.fresh v)
      mirror16 := s.pairSlotsAfter (s.mirror8.set r (Slot.fresh v)) r } := by
  cases r <;> rfl

/-- What the mirror learns of the byte a write sent: nothing of INT_STATUS, CONFIG1 without START_MEAS (R171). -/
theorem State.learnWritten_eq (s : State) (r : Reg8) (v : Byte) : s.learnWritten r v =
    let slot := Slot.fresh (if r = .config1 then withoutStartMeas s.params.layout v else v)
    { s with
      mirror8 := if r = .intStatus then s.mirror8 else s.mirror8.set r slot
      mirror16 := s.pairSlotsAfter (s.mirror8.set r slot) r } := by
  cases r <;> rfl

/-- Settles O30: REG_READ is the read of its register's width, whose value the mirror learns. -/
theorem regReadYieldsAndMirrors : Obligations.RegReadYieldsAndMirrors := by
  intro s ready
  refine ⟨fun r => ?_, fun p => ?_, fun r => ?_⟩
  · obtain ⟨b, v, reads, read⟩ := s.begin.busRd8_any r
    refine ⟨b, v, fun clean => (reads clean).2, ?_⟩
    show execRegRead (.byte r) s = _
    rw [execRegRead, State.attempt_of_accessible ready, State.regRead, read, commandByte_rd8]
    dsimp only
    rw [State.learn8_eq]
    rfl
  · obtain ⟨b, v, reads, read⟩ := s.begin.busRd16_any p
    refine ⟨b, v, fun clean => (reads clean).2, ?_⟩
    show execRegRead (.pair p) s = _
    rw [execRegRead, State.attempt_of_accessible ready, State.regRead, read, commandByte_rd16]
    rfl
  · obtain ⟨b, v, reads, read⟩ := s.begin.busRd24_any r
    refine ⟨b, v, fun clean idle => (reads clean).2.trans (Target.readout_of_idle idle ..), ?_⟩
    show execRegRead (.result r) s = _
    rw [execRegRead, State.attempt_of_accessible ready, State.regRead, read, commandByte_rd24]
    rfl

/-- REG_WRITE refuses no operands that its rule gives a meaning to (R129, R144, R171). -/
theorem regWriteRefusal_of_wellFormed {L : Layout} {name : RegName} {value : Nat}
    (h : regWriteWellFormed L name value = true) : regWriteRefusal L name value = none := by
  cases name with
  | byte r =>
    simp only [regWriteWellFormed, Bool.and_eq_true, decide_eq_true_eq, Bool.not_eq_true'] at h
    obtain ⟨narrow, legal⟩ := h
    simp [regWriteRefusal, firstRefusal_none, legal, narrow]
  | pair p =>
    have narrow : value < 65536 := of_decide_eq_true h
    simp [regWriteRefusal, narrow]
  | result r => cases h

/-- REG_WRITE of operands with a meaning runs its body (R150, R171). -/
theorem execRegWrite_of_wellFormed {s : State} {name : RegName} {value : Nat} (ready : s.Accessible)
    (h : regWriteWellFormed s.params.layout name value = true) :
    execRegWrite name value s = .next (s.begin.regWrite name value) := by
  have met : firstRefusal [s.accessRefusal, regWriteRefusal s.params.layout name value] = none := by
    rw [State.accessRefusal_none.mpr ready, regWriteRefusal_of_wellFormed h]
    rfl
  rw [execRegWrite, met]
  rfl

/-- Settles O31: REG_WRITE is the write of its register's width, whose value the mirror learns. -/
theorem regWriteSendsAndMirrors : Obligations.RegWriteSendsAndMirrors := by
  intro s v ready
  refine ⟨fun r narrow legal => ?_, fun p narrow => ?_⟩
  · obtain ⟨b, arrives, write⟩ := s.begin.busWr8_any r (regWriteByte s.params.layout r v)
    refine ⟨b, arrives, ?_, ?_⟩
    · rintro rfl
      exact parityBit_sentByte ..
    · show execRegWrite (.byte r) v s = _
      rw [execRegWrite_of_wellFormed ready (by simp [regWriteWellFormed, narrow, legal]), State.regWrite,
        State.begin_params, write, commandByte_wr8, State.learnWritten_eq]
      rfl
  · obtain ⟨b, arrives, write⟩ := s.begin.busWr16_any p (BitVec.ofNat 16 v)
    refine ⟨b, arrives, ?_⟩
    show execRegWrite (.pair p) v s = _
    rw [execRegWrite_of_wellFormed ready (by simp [regWriteWellFormed, narrow]), State.regWrite, write,
      commandByte_wr16]
    rfl

end Sys2Proof.Machine
end

section
/-! PROOFS of the statements about the operands of CONFIGURE that are brought into range (spec/41_power_config.md R203,
R204, R208, R209; spec/30_encoding.md R135): which operand each warning is of, the value and the warnings of each. -/

namespace Sys2Proof.Machine

/-! ## Which operand a warning is of -/

/-- The warnings of the one operand of CONFIGURE that can log `w` (R203 to R209). -/
def operandWarnings (p : Params) (q : ConfigRequest) : Warning → List Warning
  | .badMeasMode => (normMeasMode q.measMode).2
  | .calPeriodsBelow | .calPeriodsAbove => (normCalPeriods q.calPeriods).2
  | .avgCyclesBelow | .avgCyclesAbove => (normAvgCycles q.avgCycles).2
  | .badNumStop => (normNumStop q.numStop).2
  | .stopMaskClamped => (clamp16 .stopMaskClamped q.stopMask).2
  | .overflowClamped | .timeoutClamped => (overflowCount p.clockPeriod q.overflow).2
  | .overflowRaised =>
    (raiseOverflow (clamp16 .stopMaskClamped q.stopMask).1 (overflowCount p.clockPeriod q.overflow).1).2
  | .speedClamped | .aboveRatedMax | .aboveCeiling | .unassigned _ => []

/-- CONFIGURE logs a warning exactly if the operand it is of does (R203 to R209). -/
theorem mem_normalise_iff_operand {p : Params} {q : ConfigRequest} (w : Warning) :
    w ∈ (normalise p q).2 ↔ w ∈ operandWarnings p q w := by
  rw [mem_normalise_warnings]
  cases w <;> simp [operandWarnings, mt normMeasMode_warns, mt normCalPeriods_warns, mt normAvgCycles_warns,
    mt normNumStop_warns, mt clamp16_warns, mt overflowCount_warns, mt raiseOverflow_warns]

/-! ## Calibration periods (R203) -/

theorem normCalPeriods_tier (r : Int) :
    (r ≤ 2 → (normCalPeriods r).1 = 2) ∧ (3 ≤ r → r ≤ 10 → (normCalPeriods r).1 = 10) ∧
    (11 ≤ r → r ≤ 20 → (normCalPeriods r).1 = 20) ∧ (21 ≤ r → (normCalPeriods r).1 = 40) := by
  unfold normCalPeriods
  split_ifs <;> dsimp only <;> omega

theorem normCalPeriods_warns_iff (r : Int) :
    (.calPeriodsBelow ∈ (normCalPeriods r).2 ↔ r < 1) ∧ (.calPeriodsAbove ∈ (normCalPeriods r).2 ↔ 40 < r) := by
  unfold normCalPeriods
  split_ifs <;> simp <;> omega

/-- Settles O38: the tier and the two warnings are those of the one operand. -/
theorem calibrationPeriodsRoundUp : Obligations.CalibrationPeriodsRoundUp := by
  intro p q
  obtain ⟨two, ten, twenty, forty⟩ := normCalPeriods_tier q.calPeriods
  obtain ⟨below, above⟩ := normCalPeriods_warns_iff q.calPeriods
  exact ⟨two, ten, twenty, forty, (mem_normalise_iff_operand _).trans below, (mem_normalise_iff_operand _).trans above⟩

/-! ## Averaging cycles (R204) -/

theorem normAvgCycles_of_lt_one {a : Int} (h : a < 1) : normAvgCycles a = (1, [.avgCyclesBelow]) := if_pos h

/-- In range the cycles are a power of two not below the request, and half of it is below. -/
theorem normAvgCycles_of_mem_range {a : Int} (low : 1 ≤ a) (high : a ≤ 128) :
    ∃ k ≤ 7, normAvgCycles a = (2 ^ k, []) ∧ a ≤ 2 ^ k ∧ (0 < k → 2 ^ (k - 1) < a) := by
  have bound : ¬ a < 1 := by omega
  unfold normAvgCycles
  rw [if_neg bound]
  split_ifs
  · exact ⟨0, by decide, rfl, by omega, by omega⟩
  · exact ⟨1, by decide, rfl, by omega, by omega⟩
  · exact ⟨2, by decide, rfl, by omega, by omega⟩
  · exact ⟨3, by decide, rfl, by omega, by omega⟩
  · exact ⟨4, by decide, rfl, by omega, by omega⟩
  · exact ⟨5, by decide, rfl, by omega, by omega⟩
  · exact ⟨6, by decide, rfl, by omega, by omega⟩
  · exact ⟨7, by decide, rfl, by omega, by omega⟩

theorem normAvgCycles_of_lt {a : Int} (h : 128 < a) : normAvgCycles a = (128, [.avgCyclesAbove]) := by
  unfold normAvgCycles
  repeat rw [if_neg (by omega)]

/-- A power of two whose half is below `a` is at most any power of two that is not. -/
theorem le_of_pow_lt_of_le_pow {a : Int} {k j : Nat} (half : 0 < k → (2 : Int) ^ (k - 1) < a) (h : a ≤ 2 ^ j) :
    k ≤ j := by
  by_contra less
  have half := half (by omega)
  have mono : (2 : Int) ^ j ≤ 2 ^ (k - 1) := pow_le_pow_right₀ (by decide) (by omega)
  omega

theorem normAvgCycles_warns_iff (a : Int) :
    (.avgCyclesBelow ∈ (normAvgCycles a).2 ↔ a < 1) ∧ (.avgCyclesAbove ∈ (normAvgCycles a).2 ↔ 128 < a) := by
  rcases lt_or_ge a 1 with low | low
  · rw [normAvgCycles_of_lt_one low]
    simp [low, show a ≤ 128 by omega]
  · rcases le_or_gt a 128 with high | high
    · obtain ⟨k, -, e, -⟩ := normAvgCycles_of_mem_range low high
      rw [e]
      simp [low, high]
    · rw [normAvgCycles_of_lt high]
      simp [low, high]

/-- Settles O39: below, in and above the range of the cycles. -/
theorem averagingCyclesRoundUp : Obligations.AveragingCyclesRoundUp := by
  intro p q
  obtain ⟨below, above⟩ := normAvgCycles_warns_iff q.avgCycles
  refine ⟨fun low => congrArg Prod.fst (normAvgCycles_of_lt_one low),
    fun high => congrArg Prod.fst (normAvgCycles_of_lt high), fun low high => ?_,
    (mem_normalise_iff_operand _).trans below, (mem_normalise_iff_operand _).trans above⟩
  obtain ⟨k, le, e, reaches, half⟩ := normAvgCycles_of_mem_range low high
  exact ⟨k, le, congrArg Prod.fst e, reaches, fun j => le_of_pow_lt_of_le_pow half⟩

/-! ## Stop mask and overflow (R135, R208, R209) -/

theorem clamp16_value (w : Warning) (n : Int) :
    ((clamp16 w n).1 : Int) = if n < 0 then 0 else if 65535 < n then 65535 else n := by
  unfold clamp16
  split_ifs <;> dsimp only <;> omega

theorem clamp16_warns_iff (w : Warning) (n : Int) : w ∈ (clamp16 w n).2 ↔ n < 0 ∨ 65535 < n := by
  unfold clamp16
  split_ifs <;> simp <;> omega

theorem raiseOverflow_value (mask ovf : Nat) :
    ((raiseOverflow mask ovf).1 : Int) = if (ovf : Int) ≤ mask then (mask : Int) + 1 else ovf := by
  unfold raiseOverflow
  split_ifs <;> dsimp only <;> omega

theorem raiseOverflow_warns_iff (mask ovf : Nat) : .overflowRaised ∈ (raiseOverflow mask ovf).2 ↔ ovf ≤ mask := by
  unfold raiseOverflow
  split_ifs <;> simp <;> omega

/-- The overflow request comes to `n` before it is brought into 16 bits: a count as it is, a time in whole clock
periods, rounded up (R135). -/
def OverflowComesTo (r : OverflowRequest) (clockPeriod : Rat) (n : Int) : Prop :=
  r = .count n ∨ ∃ t, r = .timeout t ∧ n = (t / clockPeriod).ceil

theorem overflowCount_value {r : OverflowRequest} {clockPeriod : Rat} {n : Int} (h : OverflowComesTo r clockPeriod n) :
    ((overflowCount clockPeriod r).1 : Int) = if n < 0 then 0 else if 65535 < n then 65535 else n := by
  obtain rfl | ⟨t, rfl, rfl⟩ := h <;> exact clamp16_value ..

/-- A count and a time each have their own warning (R208). -/
theorem overflowCount_warns_iff {r : OverflowRequest} {clockPeriod : Rat} {n : Int}
    (h : OverflowComesTo r clockPeriod n) :
    (.overflowClamped ∈ (overflowCount clockPeriod r).2 ↔ r = .count n ∧ (n < 0 ∨ 65535 < n)) ∧
    (.timeoutClamped ∈ (overflowCount clockPeriod r).2 ↔ r ≠ .count n ∧ (n < 0 ∨ 65535 < n)) := by
  obtain rfl | ⟨t, rfl, rfl⟩ := h <;> simp [overflowCount, clamp16_warns_iff, mt clamp16_warns]

/-- Settles O40: both values fit 16 bits as the mask is below 0xFFFF, and each warning is that of its own operand. -/
theorem stopMaskAndOverflowNormalised : Obligations.StopMaskAndOverflowNormalised := by
  intro p q n narrow comesTo
  have mask := clamp16_value .stopMaskClamped q.stopMask
  have count := overflowCount_value comesTo
  have raised := raiseOverflow_value (clamp16 .stopMaskClamped q.stopMask).1 (overflowCount p.clockPeriod q.overflow).1
  have raisedWarns :=
    raiseOverflow_warns_iff (clamp16 .stopMaskClamped q.stopMask).1 (overflowCount p.clockPeriod q.overflow).1
  obtain ⟨countWarns, timeWarns⟩ := overflowCount_warns_iff comesTo
  refine ⟨?_, ?_, (mem_normalise_iff_operand _).trans (raisedWarns.trans ?_),
    (mem_normalise_iff_operand _).trans ((clamp16_warns_iff _ _).trans (by omega)),
    (mem_normalise_iff_operand _).trans countWarns, (mem_normalise_iff_operand _).trans timeWarns⟩
  · simp only [normalise, BitVec.toNat_ofNat]
    omega
  · simp only [normalise, BitVec.toNat_ofNat]
    omega
  · omega

end Sys2Proof.Machine
end

section
/-! PROOFS of the statements about OPEN, SET_CLOCK_SPEED, OFF, ON and CLEANUP (spec/41_power_config.md R191 to R196,
R214): the outputs other than ENABLE driven low, said once for OPEN and CLEANUP, then each operation on the rules of the
power sequences (`State.powerDown_eq`, `State.powerUp_onward` and their like). -/

namespace Sys2Proof.Machine

/-- Where the block accepts operations, one that asks for no more runs its body (R150, R190). -/
theorem State.attempt_of_accepting {s : State} (ready : s.Accepting) (body : State → Run) :
    s.attempt s.commonRefusal body = (body s.begin).outcome := by
  rw [State.commonRefusal_none.mpr ready, State.attempt_none]

/-! ## The outputs low (R58, R388) -/

/-- OSC_ENABLE, START and STOP low where assigned, in the order of R191 and R214. -/
def State.driveOthersLow (s : State) : State :=
  ((s.driveLine .oscEnable false).driveLine .start false).driveLine .stop false

theorem State.driveOthersLow_eq (s : State) : s.driveOthersLow = { s with
    world := s.driveOthersLow.world
    log := s.log ++ (if s.params.pins.oscEnable then [.drive .oscEnable false] else []) ++
      (if s.params.pins.start then [.drive .start false] else []) ++
      (if s.params.pins.stop then [.drive .stop false] else []) } := by
  unfold State.driveOthersLow
  rw [State.driveLine_eq, State.driveLine_eq, State.driveLine_eq]
  rfl

/-- Driving these lines holds ENABLE, and keeps a target in reset there (R361). -/
theorem State.driveOthersLow_goes (s : State) : s.world.Goes s.params s.driveOthersLow.world := by
  have osc := s.driveLine_goes .oscEnable false (by decide)
  have start := (s.driveLine .oscEnable false).driveLine_goes .start false (by decide)
  have stop := ((s.driveLine .oscEnable false).driveLine .start false).driveLine_goes .stop false (by decide)
  rw [State.driveLine_params] at start
  rw [State.driveLine_params, State.driveLine_params] at stop
  exact (osc.trans start).trans stop

/-- Each output line after it was driven low. -/
theorem State.driveLow_lines (s : State) :
    (s.driveLine .enable false).world.lines =
      { s.world.lines with enable := !s.params.pins.enable && s.world.lines.enable } ∧
    (s.driveLine .oscEnable false).world.lines =
      { s.world.lines with oscEnable := !s.params.pins.oscEnable && s.world.lines.oscEnable } ∧
    (s.driveLine .start false).world.lines =
      { s.world.lines with start := !s.params.pins.start && s.world.lines.start } ∧
    (s.driveLine .stop false).world.lines =
      { s.world.lines with stop := !s.params.pins.stop && s.world.lines.stop } := by
  simp only [State.driveLine_lines]
  refine ⟨?_, ?_, ?_, ?_⟩ <;> split <;> simp_all [Pins.has, Lines.driven]

theorem State.driveOthersLow_lines (s : State) : s.driveOthersLow.world.lines = { s.world.lines with
    oscEnable := !s.params.pins.oscEnable && s.world.lines.oscEnable
    start := !s.params.pins.start && s.world.lines.start
    stop := !s.params.pins.stop && s.world.lines.stop } := by
  obtain ⟨-, osc, -, -⟩ := s.driveLow_lines
  obtain ⟨-, -, start, -⟩ := (s.driveLine .oscEnable false).driveLow_lines
  obtain ⟨-, -, -, stop⟩ := ((s.driveLine .oscEnable false).driveLine .start false).driveLow_lines
  rw [State.driveOthersLow, stop, start, osc]
  simp only [State.driveLine_params]

/-- OFF brings ENABLE low where it is assigned and moves no other line (R195). -/
theorem State.powerDown_lines_eq (s : State) : s.powerDown.world.lines =
    { s.world.lines with enable := !s.params.pins.enable && s.world.lines.enable } := by
  rw [State.powerDown_world, (World.delay_follows ..).lines, s.driveLow_lines.1]

/-! ## OPEN (R191, R192) -/

/-- OPEN's drives are ENABLE's and the others' (R191). -/
theorem State.driveOutputsLow_eq (s : State) : s.driveOutputsLow = (s.driveLine .enable false).driveOthersLow := rfl

theorem State.driveOutputsLow_frame (s : State) : s.driveOutputsLow = { s with
    world := s.driveOutputsLow.world
    log := s.log ++ (if s.params.pins.enable then [.drive .enable false] else []) ++
      (if s.params.pins.oscEnable then [.drive .oscEnable false] else []) ++
      (if s.params.pins.start then [.drive .start false] else []) ++
      (if s.params.pins.stop then [.drive .stop false] else []) } := by
  rw [State.driveOutputsLow_eq, State.driveOthersLow_eq, State.driveLine_eq]
  rfl

theorem State.driveOutputsLow_lines (s : State) : s.driveOutputsLow.world.lines = { s.world.lines with
    enable := !s.params.pins.enable && s.world.lines.enable
    oscEnable := !s.params.pins.oscEnable && s.world.lines.oscEnable
    start := !s.params.pins.start && s.world.lines.start
    stop := !s.params.pins.stop && s.world.lines.stop } := by
  rw [State.driveOutputsLow_eq, State.driveOthersLow_lines, s.driveLow_lines.1, State.driveLine_params]

theorem State.driveOutputsLow_resets {s : State} (h : s.params.pins.enable = true) :
    s.driveOutputsLow.world.target = Target.inReset s.params := by
  have held : (s.driveLine .enable false).world.held s.params = true := by simp [World.held, h, s.driveLow_lines.1]
  have goes := (s.driveLine .enable false).driveOthersLow_goes
  rw [State.driveLine_params] at goes
  exact goes.held held (s.driveEnableLow_held held)

/-- OPEN where the transport opens (R191). -/
theorem execOpen_of_opens {s : State} (ready : s.openRefusal = none) (opens : s.turn.opens = true) :
    exec .openBus s = .next ({ s.begin.nextTurn.2 with busOpen := true } : State).driveOutputsLow := by
  show execOpen s = _
  rw [execOpen, ready]
  exact congrArg Host.Outcome.next (if_pos opens)

/-- OPEN where the transport cannot be opened (R192, R328). -/
theorem execOpen_of_unavailable {s : State} (ready : s.openRefusal = none) (opens : s.turn.opens = false) :
    exec .openBus s = .next (s.begin.nextTurn.2.raiseFatal .busUnavailable) := by
  show execOpen s = _
  rw [execOpen, ready]
  exact congrArg Host.Outcome.next (if_neg (ne_true_of_eq_false opens))

/-- A fatal error taken while the bus is closed powers nothing off (R328). -/
theorem State.raiseFatal_of_closed {s : State} (closed : s.busOpen = false) (e : FatalError) :
    s.raiseFatal e = { s with
      fatal := some e, mstate := .idle, result := .failed e, log := s.log ++ [.failed e] } := by
  simp [State.raiseFatal, State.note, closed]

/-- Settles O32: the environment decides between the drives and the fatal error. -/
theorem openTakesBusOrFails : Obligations.OpenTakesBusOrFails := by
  intro s alone fatal closed idle
  have ready := State.openRefusal_none.mpr ⟨alone, fatal, closed, idle⟩
  refine ⟨fun opens => ⟨_, execOpen_of_opens ready opens, ?_, ?_, ?_⟩, fun fails => ?_⟩
  · rw [State.driveOutputsLow_frame]
    rfl
  · rw [State.driveOutputsLow_lines]
    simp only [State.nextTurn_world, State.begin_around, s.around_follows.lines]
    rfl
  · exact State.driveOutputsLow_resets (s := { s.begin.nextTurn.2 with busOpen := true })
  · rw [execOpen_of_unavailable ready fails, State.raiseFatal_of_closed (s := s.begin.nextTurn.2) closed, ← idle]
    rfl

/-! ## SET_CLOCK_SPEED (R193) -/

theorem clampedSpeed_of_lt_min {p : Params} {q : Rat} (ordered : p.busMin ≤ p.busRated) (h : q < p.busMin) :
    clampedSpeed p q = p.busMin := by
  rw [clampedSpeed, larger, if_pos h, smaller, if_neg (not_lt.mpr ordered)]

theorem clampedSpeed_of_mem_range {p : Params} {q : Rat} (low : p.busMin ≤ q) (high : q ≤ p.busRated) :
    clampedSpeed p q = q := by
  rw [clampedSpeed, larger, if_neg (not_lt.mpr low), smaller, if_neg (not_lt.mpr high)]

theorem clampedSpeed_of_rated_lt {p : Params} {q : Rat} (ordered : p.busMin ≤ p.busRated) (h : p.busRated < q) :
    clampedSpeed p q = p.busRated := by
  rw [clampedSpeed, larger, if_neg (not_lt.mpr (ordered.trans h.le)), smaller, if_pos h]

/-- Without `force` the speed is the clamped one, and a warning tells if that is another (R193). -/
theorem chosenSpeed_clamped (p : Params) (q : Rat) : chosenSpeed p q false =
    (clampedSpeed p q, if clampedSpeed p q = q then [] else [.speedClamped]) := rfl

theorem execSetClockSpeed_of_pos {s : State} {q : Rat} (force : Bool) (ready : s.Accepting) (pos : 0 < q) :
    exec (.setClockSpeed q force) s = .next { s with
      busSpeed := some (chosenSpeed s.params q force).1
      result := .speed (chosenSpeed s.params q force).1
      log := (chosenSpeed s.params q force).2.map .warned } := by
  have met : firstRefusal [s.commonRefusal, refuseIf (decide (q ≤ 0)) .speedNotPositive] = none := by
    simp [firstRefusal_none, State.commonRefusal_none.mpr ready, pos]
  show execSetClockSpeed q force s = _
  rw [execSetClockSpeed, met]
  rfl

/-- Settles O33: each clause is one branch of the speed chosen. -/
theorem setClockSpeedClamps : Obligations.SetClockSpeedClamps := by
  intro s q force ready pos ordered ceiling
  refine ⟨_, _, execSetClockSpeed_of_pos force ready pos, ?_, ?_, ?_, ?_, ?_, ?_⟩
  · rintro rfl low
    rw [chosenSpeed_clamped, clampedSpeed_of_lt_min ordered low, if_neg low.ne']
    exact ⟨rfl, rfl⟩
  · rintro rfl low high
    rw [chosenSpeed_clamped, clampedSpeed_of_mem_range low high, if_pos rfl]
    exact ⟨rfl, rfl⟩
  · rintro rfl high
    rw [chosenSpeed_clamped, clampedSpeed_of_rated_lt ordered high, if_neg high.ne]
    exact ⟨rfl, rfl⟩
  · rintro rfl high
    simp [chosenSpeed, not_lt.mpr high, not_lt.mpr (high.trans ceiling)]
  · rintro rfl above below
    simp [chosenSpeed, above, not_lt.mpr below]
  · rintro rfl above
    simp [chosenSpeed, above]

/-! ## OFF, ON and CLEANUP (R195, R196, R214) -/

theorem execOff_of_accepting {s : State} (ready : s.Accepting) : exec .powerOff s = .next s.begin.powerDown :=
  State.attempt_of_accepting ready fun s => .going s.powerDown

theorem execOn_of_off {s : State} (ready : s.Accepting) (off : s.pstate = .off) :
    exec .powerOn s = .next s.begin.powerUp := by
  have met : firstRefusal [s.commonRefusal, refuseIf (s.pstate != .off) .wrongPowerState] = none := by
    simp [firstRefusal_none, State.commonRefusal_none.mpr ready, off]
  show execOn s = _
  rw [execOn, met]
  rfl

theorem execCleanup_of_accepting {s : State} (ready : s.Accepting) : exec .cleanup s = .next s.begin.cleanedUp :=
  State.attempt_of_accepting ready fun s => .going s.cleanedUp

/-- Settles O34: OFF's body, whose drive of ENABLE is the only one. -/
theorem offResetsTargetAndMarksStale : Obligations.OffResetsTargetAndMarksStale := by
  intro s ready
  refine ⟨_, execOff_of_accepting ready, ?_, fun assigned => ?_, fun unassigned => ?_, s.begin.powerDown_time⟩
  · rw [State.powerDown_eq]
    rfl
  · obtain ⟨reset, lines, -⟩ := s.begin.powerDown_resets assigned
    refine ⟨reset, lines, ?_⟩
    rw [State.powerDown_eq]
    simp [driveNote, Pins.has, assigned]
  · refine ⟨s.begin.powerDown_lines unassigned, ?_⟩
    rw [State.powerDown_eq]
    simp [driveNote, Pins.has, unassigned]

/-- Settles O35: ON's body; the target drifts only, unless it was released too early. -/
theorem onReleasesTarget : Obligations.OnReleasesTarget := by
  intro s ready off
  obtain ⟨lines, settles, -⟩ := s.begin.powerUp_onward
  refine ⟨_, execOn_of_off ready off, ?_, lines, settles, fun longEnough => (s.begin.powerUp_target longEnough).keeps⟩
  rw [State.powerUp_eq]
  rfl

/-- CLEANUP is OFF, the other outputs low with a warning where OSC_ENABLE is not assigned, and the bus closed (R214). -/
theorem State.cleanedUp_eq_driveOthersLow (s : State) : s.cleanedUp =
    { (s.powerDown.warnUnassigned .oscEnable).driveOthersLow with busOpen := false } := rfl

theorem State.cleanedUp_eq (s : State) : s.cleanedUp = { s with
    world := s.cleanedUp.world
    mirror8 := s.mirror8.map Slot.marked
    mirror24 := s.mirror24.map Slot.marked
    mirror16 := s.mirror16.map Slot.marked
    pstate := .off
    busOpen := false
    log := s.log ++ [driveNote s.params.pins .enable false, .power .off, driveNote s.params.pins .oscEnable false] ++
      (if s.params.pins.start then [.drive .start false] else []) ++
      (if s.params.pins.stop then [.drive .stop false] else []) } := by
  rw [State.cleanedUp, State.driveLine_eq, State.driveLine_eq, State.driveOrWarn_eq, State.powerDown_eq]
  simp only [List.append_assoc, List.cons_append, List.nil_append]
  rfl

theorem State.powerDown_params (s : State) : s.powerDown.params = s.params := by rw [State.powerDown_eq]

/-- After OFF, CLEANUP drives only outputs other than ENABLE (R214). -/
theorem State.cleanedUp_goes (s : State) : s.powerDown.world.Goes s.params s.cleanedUp.world := by
  have goes := (s.powerDown.warnUnassigned .oscEnable).driveOthersLow_goes
  rw [State.warnUnassigned_world, State.warnUnassigned_params, State.powerDown_params] at goes
  rw [State.cleanedUp_eq_driveOthersLow]
  exact goes

theorem State.cleanedUp_lines (s : State) : s.cleanedUp.world.lines = { s.world.lines with
    enable := !s.params.pins.enable && s.world.lines.enable
    oscEnable := !s.params.pins.oscEnable && s.world.lines.oscEnable
    start := !s.params.pins.start && s.world.lines.start
    stop := !s.params.pins.stop && s.world.lines.stop } := by
  have lines := (s.powerDown.warnUnassigned .oscEnable).driveOthersLow_lines
  rw [State.warnUnassigned_world, State.warnUnassigned_params, State.powerDown_lines_eq,
    State.powerDown_params] at lines
  rw [State.cleanedUp_eq_driveOthersLow]
  exact lines

theorem State.cleanedUp_resets {s : State} (h : s.params.pins.enable = true) :
    s.cleanedUp.world.target = Target.inReset s.params := by
  obtain ⟨reset, lines, -⟩ := s.powerDown_resets h
  exact s.cleanedUp_goes.held (by simp [World.held, h, lines]) reset

/-- Settles O36: OFF's body, then the other outputs low while the target stays in reset. -/
theorem cleanupReleasesEverything : Obligations.CleanupReleasesEverything := by
  intro s ready
  refine ⟨_, execCleanup_of_accepting ready, ?_, s.begin.cleanedUp_lines, State.cleanedUp_resets (s := s.begin),
    s.begin.powerDown_time.trans s.begin.cleanedUp_goes.time⟩
  rw [State.cleanedUp_eq]
  rfl

end Sys2Proof.Machine
end

section
/-! PROOFS of the statements about CONFIGURE and CONFIGURE_RETAIN over a clean bus (spec/41_power_config.md R202, R210,
R212): the five verified writes (`State.writeConfiguration_clean`) between what each operation begins with and what it
does once they are verified. -/

namespace Sys2Proof.Machine

/-- What the five configuration writes leave over clean transfers, `x` being what CONFIG1 read back as (R202). -/
def State.written (s : State) (w : World) (c1 c2 mask x : Byte) (stopMask overflow : Half) : State :=
  { s with
    world := w
    mirror8 := configured8 s.mirror8 c1 c2 mask stopMask overflow
    mirror16 := { s.mirror16 with clockOvf := ⟨some overflow, false⟩, stopMask := ⟨some stopMask, false⟩ }
    log := s.log ++ verified8 .config1 c1 x ++ verified8 .config2 c2 c2 ++ verified8 .intMask mask mask ++
      verified16 .stopMask stopMask ++ verified16 .clockOvf overflow }

/-- An operation whose last part is the five configuration writes completes over clean transfers (R202, R212). -/
theorem State.finishWrites_clean (op : WriteOp) {s : State} {c1 : Byte} (c2 mask : Byte) (stopMask overflow : Half)
    (clean : s.CleanNext 10) (unarmed : withoutStartMeas s.params.layout c1 = c1) :
    ∃ w x, s.finishWrites op (configurationWrites c1 c2 mask stopMask overflow) =
        .going ((s.written w c1 c2 mask x stopMask overflow).afterWrites op) ∧
      withoutStartMeas s.params.layout x = c1 ∧ w.target.Holds s.params.layout c1 c2 mask stopMask overflow ∧
      KeepsOthers s w [.config1, .config2, .intMask, .stopMaskH, .stopMaskL, .clockOvfH, .clockOvfL] := by
  obtain ⟨w, x, writes, readBack, holds, keeps⟩ :=
    s.writeConfiguration_clean op c1 c2 mask stopMask overflow clean unarmed
  exact ⟨w, x, State.finishWrites_of_going writes, readBack, holds, keeps⟩

/-! ## CONFIGURE (R202) -/

/-- CONFIGURE begins its writes with `cfg` replaced and its warnings logged (R202). -/
theorem execConfigure_of_accessible {s : State} {q : ConfigRequest} (ready : s.Accessible)
    (mask : stopMaskRefused q = false) : exec (.configure q) s =
      ((s.begin.withRequest q).finishWrites .configure
        (configureWrites s.params (normalise s.params q).1)).outcome := by
  have met : firstRefusal [s.accessRefusal, refuseIf (stopMaskRefused q) .stopMaskTooLarge] = none := by
    simp [firstRefusal_none, State.accessRefusal_none.mpr ready, mask]
  show execConfigure q s = _
  rw [execConfigure, met]
  rfl

/-- The configuration writes leave COARSE_CNTR_OVF alone (R202). -/
theorem KeepsOthers.coarseOvf {s : State} {w : World}
    (h : KeepsOthers s w [.config1, .config2, .intMask, .stopMaskH, .stopMaskL, .clockOvfH, .clockOvfL]) :
    w.target.coarseOvf = s.world.target.coarseOvf :=
  congrArg₂ joinHalf (h.keeps .coarseOvfH (by decide) (by decide) (by decide))
    (h.keeps .coarseOvfL (by decide) (by decide) (by decide))

/-- Settles O42: the five writes begin with the bytes of the normalised record. -/
theorem configureWritesAndVerifies : Obligations.ConfigureWritesAndVerifies := by
  intro s q ready wf mask clean
  obtain ⟨w, x, writes, readBack, holds, keeps⟩ := State.finishWrites_clean .configure
    (s := s.begin.withRequest q) (config2Of s.params.layout (normalise s.params q).1)
    (sentByte s.params.layout .intMask s.params.intMaskValue) (normalise s.params q).1.stopMask
    (normalise s.params q).1.overflow clean (withoutStartMeas_config1Of wf (normalise s.params q).1)
  refine ⟨_, x, (execConfigure_of_accessible ready mask).trans (congrArg Run.outcome writes), readBack, ?_, ?_, ?_, ?_⟩
  · rw [State.afterWrites_eq]
    rfl
  · exact holds
  · exact keeps.coarseOvf
  · exact keeps.lines

/-! ## CONFIGURE_RETAIN (R212) -/

theorem execConfigureRetain_of_accessible {s : State} (ready : s.Accessible) (may : s.retainRefusal = none) :
    exec .configureRetain s = (s.begin.rewrite .configureRetain).outcome := by
  have met : firstRefusal [s.accessRefusal, s.retainRefusal] = none := by
    simp [firstRefusal_none, State.accessRefusal_none.mpr ready, may]
  show execConfigureRetain s = _
  rw [execConfigureRetain, met]
  rfl

/-- The mirrored configuration is the five writes of its slots, as the controller sends them (R28, R41, R212). -/
theorem State.retained_of_values {s : State} {v1 v2 v3 mh ml oh ol : Byte}
    (config1 : s.mirror8.config1.value = some v1) (config2 : s.mirror8.config2.value = some v2)
    (intMask : s.mirror8.intMask.value = some v3) (stopMaskH : s.mirror8.stopMaskH.value = some mh)
    (stopMaskL : s.mirror8.stopMaskL.value = some ml) (clockOvfH : s.mirror8.clockOvfH.value = some oh)
    (clockOvfL : s.mirror8.clockOvfL.value = some ol) : s.retained = some (configurationWrites
      (sentByte s.params.layout .config1 (withoutStartMeas s.params.layout v1))
      (sentByte s.params.layout .config2 v2) (sentByte s.params.layout .intMask v3) (joinHalf mh ml)
      (joinHalf oh ol)) := by
  simp only [State.retained, config1, config2, intMask, stopMaskH, stopMaskL, clockOvfH, clockOvfL]

theorem State.rewrite_of_retained {s : State} {ws : List VerifiedWrite} (h : s.retained = some ws) (op : WriteOp) :
    s.rewrite op = s.finishWrites op ws := by
  simp only [State.rewrite, h]

/-- Leaving bits out that have no field leaves START_MEAS at 0 (R28, R212). -/
theorem withoutStartMeas_sentByte (L : Layout) (r : Reg8) (v : Byte) :
    withoutStartMeas L (sentByte L r (withoutStartMeas L v)) = sentByte L r (withoutStartMeas L v) := by
  rw [sentByte, withoutStartMeas, BitVec.and_assoc, BitVec.and_comm (sentBits L r), ← BitVec.and_assoc,
    ← withoutStartMeas, withoutStartMeas_idem]

/-- Settles O43: the five writes begin with the mirror's bytes. -/
theorem configureRetainReapplies : Obligations.ConfigureRetainReapplies := by
  intro s v1 v2 v3 mh ml oh ol ready cfg config1 config2 intMask stopMaskH stopMaskL clockOvfH clockOvfL clean
  have retained := State.retained_of_values config1 config2 intMask stopMaskH stopMaskL clockOvfH clockOvfL
  have may : s.retainRefusal = none :=
    State.retainRefusal_none.mpr ⟨Option.isSome_iff_ne_none.mpr cfg, by rw [retained]; rfl⟩
  have unarmed := withoutStartMeas_sentByte s.params.layout .config1 v1
  obtain ⟨w, x, writes, readBack, holds, keeps⟩ := State.finishWrites_clean .configureRetain (s := s.begin)
    (sentByte s.params.layout .config2 v2) (sentByte s.params.layout .intMask v3) (joinHalf mh ml) (joinHalf oh ol)
    clean unarmed
  have runs : exec .configureRetain s = _ := (execConfigureRetain_of_accessible ready may).trans
    (congrArg Run.outcome ((State.rewrite_of_retained (s := s.begin) retained .configureRetain).trans writes))
  refine ⟨_, x, runs, readBack, ?_, parityBit_sentByte .., ?_, holds, keeps.lines⟩
  · exact (congrArg (startMeasBit s.params.layout) unarmed.symm).trans (startMeasBit_withoutStartMeas ..)
  · rw [State.afterWrites_eq]
    rfl

end Sys2Proof.Machine
end

section
/-! PROOFS of the statement about the bounded write-verify loop (spec/41_power_config.md R200; spec/60_exceptions.md
R316, R328): how an operation that ends in verified writes stands at the end of a step, said once for the four
operations that do. -/

namespace Sys2Proof.Machine

/-! ## How verified writes end a step (R200, R316, R328) -/

/-- How an operation that ends in verified writes stands in `t`, the end of a step in which they were begun with
parameters `p` in power state `power`: done and Configured, stopped by the fatal error with the target off, or going on
in the next step, which takes the lack of a limit (R200, R316, R328). -/
inductive WritesStop (p : Params) (power : PState) (op : WriteOp) (t : State) : Prop
  | configured (fatal : t.fatal = none) (alone : t.pending = none) (power : t.pstate = .configured)
      (outcome : op = .measure → t.outcome = some .triggerPolarity)
  | failed (limit : p.retryLimit ≠ none) (fatal : t.fatal = some .configurationWriteFailure) (alone : t.pending = none)
      (power : t.pstate = .off) (idle : t.mstate = .idle) (result : t.result = .failed .configurationWriteFailure)
      (reset : p.pins.enable = true → t.world.target = Target.inReset p)
  | goesOn (limit : p.retryLimit = none) (fatal : t.fatal = none) (more : t.pending ≠ none) (power : t.pstate = power)

/-- Only a write that gives up asks if the bus is open, for its power-off (R328). -/
theorem WritesEnd.stop {op : WriteOp} {ws : List VerifiedWrite} {u t : State} (h : WritesEnd op ws u t)
    (alone : u.pending = none) (fatal : u.fatal = none) (opened : u.params.retryLimit ≠ none → u.busOpen = true) :
    WritesStop u.params u.pstate op t := by
  cases h with
  | verified x bus _ last =>
    subst last
    rw [State.afterWrites_eq, bus.frame]
    exact .configured fatal alone rfl fun measure => if_pos measure
  | failed gaveUp =>
    have limited : u.params.retryLimit ≠ none := by
      obtain ⟨-, -, -, -, limited, -⟩ := gaveUp
      exact limited
    have stop := gaveUp.fatal (opened limited)
    have reset := stop.reset
    rw [stop.frame] at reset ⊢
    exact .failed limited rfl alone rfl rfl rfl reset
  | goesOn more =>
    obtain ⟨x, rest, bus, unlimited, -, rfl, -⟩ := more
    rw [bus.frame]
    exact .goesOn unlimited fatal nofun rfl

/-- Verified writes begun where the block accepts operations are not refused, and end the step in one of these ways. -/
theorem State.finishWrites_stops (op : WriteOp) (ws : List VerifiedWrite) {u : State} (alone : u.pending = none)
    (fatal : u.fatal = none) (opened : u.params.retryLimit ≠ none → u.busOpen = true) :
    ∃ t, (u.finishWrites op ws).outcome = .next t ∧ WritesStop u.params u.pstate op t := by
  have ends := u.finishWrites_writesEnd op ws
  obtain ⟨t, e⟩ | ⟨t, e⟩ := (u.finishWrites_ends op ws).cases <;> rw [e] at ends ⊢ <;>
    exact ⟨t, rfl, ends.stop alone fatal opened⟩

/-- So does the mirrored configuration, written again where its slots are present (R212). -/
theorem State.rewrite_stops (op : WriteOp) {u : State} (ready : u.Accepting) (present : u.retained ≠ none) :
    ∃ t, (u.rewrite op).outcome = .next t ∧ WritesStop u.params u.pstate op t := by
  obtain ⟨ws, retained⟩ := Option.ne_none_iff_exists'.mp present
  obtain ⟨alone, fatal, opened, -⟩ := ready
  rw [State.rewrite_of_retained retained]
  exact u.finishWrites_stops op ws alone fatal fun _ => opened

/-- The power cycle of a recovery ends On, and keeps the values of the mirror (R43, R195, R196). -/
theorem State.powerCycle_keeps (u : State) : u.powerDown.powerUp.params = u.params ∧
    u.powerDown.powerUp.pstate = .on ∧ u.powerDown.powerUp.retained = u.retained ∧
    (u.Accepting → u.powerDown.powerUp.Accepting) := by
  rw [State.powerUp_eq, State.powerDown_eq]
  exact ⟨rfl, rfl, rfl, id⟩

/-- A recovery writes the configuration from On, where the power cycle leaves it (R232, R257). -/
theorem Recovers.stop {op : WriteOp} {s t : State} (h : Recovers op s t) (ready : s.Accepting) :
    WritesStop s.params .on op t := by
  obtain ⟨u, bus, -, ws, -, ends⟩ := h
  obtain ⟨params, power, -, accepts⟩ := u.powerCycle_keeps
  obtain ⟨alone, fatal, opened, -⟩ := accepts (by rw [bus.frame]; exact ready)
  have stop := ends.stop alone fatal fun _ => opened
  rwa [params, power, bus.params] at stop

theorem State.recover_stops (op : WriteOp) {u : State} (ready : u.Accepting) (present : u.retained ≠ none) :
    ∃ t, (u.recover op).outcome = .next t ∧ WritesStop u.params .on op t := by
  obtain ⟨params, power, retained, accepts⟩ := u.powerCycle_keeps
  have stops := State.rewrite_stops op (accepts ready) (retained ▸ present)
  rwa [params, power] at stops

theorem State.retainRefusal_none_of_ne {s : State} (cfg : s.cfg ≠ none) (present : s.retained ≠ none) :
    s.retainRefusal = none :=
  State.retainRefusal_none.mpr ⟨Option.isSome_iff_ne_none.mpr cfg, Option.isSome_iff_ne_none.mpr present⟩

/-! ## The four operations with verified writes (R202, R212, R232, R257) -/

theorem execConfigure_stops {s : State} {q : ConfigRequest} (ready : s.Accessible) (mask : stopMaskRefused q = false) :
    ∃ t, exec (.configure q) s = .next t ∧ WritesStop s.params s.pstate .configure t := by
  rw [execConfigure_of_accessible ready mask]
  obtain ⟨⟨alone, fatal, opened, -⟩, -⟩ := ready
  exact (s.begin.withRequest q).finishWrites_stops .configure _ alone fatal fun _ => opened

theorem execConfigureRetain_stops {s : State} (ready : s.Accessible) (may : s.retainRefusal = none) :
    ∃ t, exec .configureRetain s = .next t ∧ WritesStop s.params s.pstate .configureRetain t := by
  have ⟨_, present⟩ := State.retainRefusal_none.mp may
  rw [execConfigureRetain_of_accessible ready may]
  exact s.begin.rewrite_stops .configureRetain ready.1 (Option.isSome_iff_ne_none.mp present)

theorem execHardRecover_stops {s : State} (ready : s.Accepting) (configured : s.pstate = .configured)
    (may : s.retainRefusal = none) :
    ∃ t, exec .hardRecover s = .next t ∧ WritesStop s.params .on .hardRecover t := by
  have met : firstRefusal
      [s.commonRefusal, refuseIf (s.pstate != .configured) .wrongPowerState, s.retainRefusal] = none := by
    simp [firstRefusal_none, State.commonRefusal_none.mpr ready, configured, may]
  have runs : exec .hardRecover s = (s.begin.recover .hardRecover).outcome := by
    show execHardRecover s = _
    rw [execHardRecover, met]
    rfl
  have ⟨_, present⟩ := State.retainRefusal_none.mp may
  rw [runs]
  exact s.begin.recover_stops .hardRecover ready (Option.isSome_iff_ne_none.mp present)

/-- MEASURE is its body where it has what it needs (R230). -/
theorem execMeasure_of_ready {s : State} {c : Cfg} {c1 : Byte} {n : Nat} (ready : s.MeasureReady c c1 n) :
    exec .measure s = (s.begin.measure c c1).outcome := by
  have met : s.measureRefusal = none := by
    simp [State.measureRefusal, firstRefusal_none, State.commonRefusal_none.mpr ready.accepting, ready.configured,
      ready.cfg, ready.config1]
  show execMeasure s = _
  rw [execMeasure, met, State.attempt_none]
  simp only [State.begin_cfg, State.begin_mirror8, ready.cfg, ready.config1]

/-- A run that ended is not gone on with. -/
theorem Run.andThen_ended (r : Run) (next : State → Run) : (r.andThen .ended).andThen next = r.andThen .ended := by
  cases r <;> rfl

theorem Run.outcome_andThen_ended (r : Run) : (r.andThen .ended).outcome = r.outcome := by cases r <;> rfl

/-- At the wrong TRIG level MEASURE is a recovery (R232, R311). -/
theorem State.measure_of_wrongLevel {s : State} {c : Cfg} (c1 : Byte) (wired : s.params.pins.trig1 = true)
    (wrong : s.nextTurn.2.world.level s.params .trig1 ≠ trigIdle c) (may : s.retainRefusal = none) :
    s.measure c c1 = (s.nextTurn.2.recover .measure).andThen .ended := by
  have polarity : s.checkPolarity c = (s.nextTurn.2.recover .measure).andThen .ended := by
    have may : s.nextTurn.2.retainRefusal = none := may
    simp only [State.checkPolarity, if_pos wired, State.nextTurn_params, if_neg wrong, may]
  simp only [State.measure, polarity, Run.andThen_ended]

theorem execMeasure_stops {s : State} {c : Cfg} {c1 : Byte} {n : Nat} (ready : s.MeasureReady c c1 n)
    (present : s.retained ≠ none) (wrong : ¬ s.TrigIdle c) :
    ∃ t, exec .measure s = .next t ∧ WritesStop s.params .on .measure t := by
  obtain ⟨wired, wrong⟩ := Classical.not_imp.mp wrong
  rw [State.sampled, if_pos wired] at wrong
  have may : s.begin.retainRefusal = none := State.retainRefusal_none_of_ne (by simp [ready.cfg]) present
  rw [execMeasure_of_ready ready, State.measure_of_wrongLevel (s := s.begin) c1 wired wrong may,
    Run.outcome_andThen_ended]
  exact s.begin.nextTurn.2.recover_stops .measure ready.accepting present

/-- The three ends as R200, R316 and R328 tell them apart for the instruction that wrote. -/
theorem WritesStop.bounded {p : Params} {power : PState} {op : WriteOp} {i : Instr} {t : State}
    (h : WritesStop p power op t) (measure : i = .measure → op = .measure) :
    (t.fatal = none ∧ t.pending = none ∧ t.pstate = .configured ∧
      (i = .measure → t.outcome = some .triggerPolarity)) ∨
    (p.retryLimit ≠ none ∧ t.fatal = some .configurationWriteFailure ∧ t.pending = none ∧
      t.pstate = .off ∧ t.mstate = .idle ∧ t.result = .failed .configurationWriteFailure ∧
      (p.pins.enable = true → t.world.target = Target.inReset p)) ∨
    (p.retryLimit = none ∧ t.fatal = none ∧ t.pending ≠ none) := by
  cases h with
  | configured fatal alone power outcome => exact .inl ⟨fatal, alone, power, outcome ∘ measure⟩
  | failed limit fatal alone power idle result reset =>
    exact .inr (.inl ⟨limit, fatal, alone, power, idle, result, reset⟩)
  | goesOn limit fatal more => exact .inr (.inr ⟨limit, fatal, more⟩)

/-- A resumed operation stands as its writes left it (R200). -/
theorem step_stops_of_pending {s : State} {op : WriteOp} {ws : List VerifiedWrite} (goesOn : s.pending = some ⟨op, ws⟩)
    (fatal : s.fatal = none) (opened : s.params.retryLimit ≠ none → s.busOpen = true) :
    ∃ t, step s = .next t ∧ WritesStop s.params s.pstate op t := by
  rw [step_of_pending goesOn]
  exact State.finishWrites_stops op ws rfl fatal opened

/-- Settles O45: each of the operations ends its verified writes in one of the three ways; without a limit a resumed one
has no write to give up. -/
theorem boundedRetryAlwaysEnds : Obligations.BoundedRetryAlwaysEnds := by
  refine ⟨fun s i ready which => ?_, fun s goesOn fatal unlimited => ?_⟩
  · obtain ⟨q, rfl, on, mask⟩ | ⟨rfl, on, cfg, present⟩ | ⟨rfl, configured, cfg, present⟩ |
      ⟨c, c1, n, rfl, measurable, present, wrong⟩ := which
    · obtain ⟨t, answers, stop⟩ := execConfigure_stops ⟨ready, on⟩ mask
      exact ⟨t, answers, stop.bounded nofun⟩
    · obtain ⟨t, answers, stop⟩ := execConfigureRetain_stops ⟨ready, on⟩ (State.retainRefusal_none_of_ne cfg present)
      exact ⟨t, answers, stop.bounded nofun⟩
    · obtain ⟨t, answers, stop⟩ := execHardRecover_stops ready configured (State.retainRefusal_none_of_ne cfg present)
      exact ⟨t, answers, stop.bounded nofun⟩
    · obtain ⟨t, answers, stop⟩ := execMeasure_stops measurable present wrong
      exact ⟨t, answers, stop.bounded fun _ => rfl⟩
  · obtain ⟨⟨op, ws⟩, goesOn⟩ := Option.ne_none_iff_exists'.mp goesOn
    obtain ⟨t, answers, stop⟩ := step_stops_of_pending goesOn fatal fun limited => absurd unlimited limited
    refine ⟨t, answers, ?_⟩
    cases stop with
    | configured fatal _ power => exact ⟨fatal, .inr power⟩
    | failed limited => exact absurd unlimited limited
    | goesOn _ fatal more => exact ⟨fatal, .inl more⟩

end Sys2Proof.Machine
end

section
/-! PROOFS of the statement about the power state (spec/41_power_config.md R190; spec/60_exceptions.md R328, R334): what
each instruction that answers a next state needed of it, and where it left it. -/

namespace Sys2Proof.Machine

/-! ## Operations that leave the power state alone -/

/-- From `s` to `t` the power state stayed, no fatal error was taken, and no operation was left to go on. -/
structure SamePower (s t : State) : Prop where
  power   : t.pstate = s.pstate
  fatal   : t.fatal = s.fatal
  pending : t.pending = s.pending

theorem SamePower.trans {a b c : State} (h : SamePower a b) (k : SamePower b c) : SamePower a c :=
  ⟨k.power.trans h.power, k.fatal.trans h.fatal, k.pending.trans h.pending⟩

theorem Onward.samePower {s t : State} (h : Onward s t) : SamePower s t := by
  rw [h.frame]
  exact ⟨rfl, rfl, rfl⟩

theorem State.computeTofs_samePower (s : State) (c : Cfg) (periods : Nat) :
    SamePower s (s.computeTofs c periods).2 := by
  unfold State.computeTofs
  split <;> exact ⟨rfl, rfl, rfl⟩

/-- MEASURE that returns an outcome leaves the power state alone (R190, R330). -/
theorem Answered.samePower {s t : State} (h : Answered s t) : SamePower s t := by
  obtain ⟨u, v, w, o, steps, computes, returns, -, rfl⟩ := h
  have converted : SamePower u v := by
    obtain rfl | ⟨c, periods, rfl⟩ := computes
    · exact ⟨rfl, rfl, rfl⟩
    · exact u.computeTofs_samePower c periods
  exact ((steps.samePower.trans converted).trans returns.samePower).trans ⟨rfl, rfl, rfl⟩

/-- The operations that access registers and leave the power state alone, MEASURE apart (R190). -/
def Instr.accesses : Instr → Bool
  | .rd8 _ | .wr8 _ _ | .rd16 _ | .wr16 _ _ | .rd24 _ | .rdall8 | .rdall24 => true
  | .readRegs8 | .readRegs24 | .regRead _ | .regWrite _ _ | .clearStatus _ => true
  | _ => false

/-- An operation that needs register access and only transfers and learns. -/
theorem State.attempt_busOnly {s t : State} {refusal : Option Refusal} {body : State → Run}
    (h : s.attempt refusal body = .next t) (bus : ∀ u, (body u).Gives (BusOnly u) (BusOnly u)) :
    refusal = none ∧ BusOnly s t := by
  obtain ⟨met, answers⟩ := State.attempt_next h
  exact ⟨met, (BusOnly.begin s).trans (or_self_iff.mp ((bus _).outcome answers))⟩

/-- Each of them needs register access, and makes transfers and mirror updates only (R160 to R171, R255). -/
theorem exec_of_accesses {i : Instr} {s t : State} (access : Instr.accesses i = true) (h : exec i s = .next t) :
    s.Accessible ∧ BusOnly s t := by
  have accessed {body : State → Run} (h : s.attempt s.accessRefusal body = .next t)
      (bus : ∀ u, (body u).Gives (BusOnly u) (BusOnly u)) : s.Accessible ∧ BusOnly s t :=
    (State.attempt_busOnly h bus).imp_left State.accessRefusal_none.mp
  cases i with
  | rd8 r => exact accessed (show execRd8 r s = .next t from h) fun u => (BusOnly.rd8 u r).trans (.yields ..)
  | wr8 r v => exact accessed (show execWr8 r v s = .next t from h) fun u => .wr8 u r v
  | rd16 p => exact accessed (show execRd16 p s = .next t from h) fun u => (BusOnly.rd16 u p).trans (.yields ..)
  | wr16 p v => exact accessed (show execWr16 p v s = .next t from h) fun u => .wr16 u p v
  | rd24 r => exact accessed (show execRd24 r s = .next t from h) fun u => (BusOnly.rd24 u r).trans (.yields ..)
  | rdall8 => exact accessed (show execRdall8 s = .next t from h) fun u => (BusOnly.rdAll8 u).trans (.yields ..)
  | rdall24 => exact accessed (show execRdall24 s = .next t from h) fun u => (BusOnly.rdAll24 u).trans (.yields ..)
  | readRegs8 => exact accessed (show execReadRegs8 s = .next t from h) fun u => .readRegs8 u
  | readRegs24 => exact accessed (show execReadRegs24 s = .next t from h) fun u => .readRegs24 u
  | regRead name => exact accessed (show execRegRead name s = .next t from h) fun u => .regRead u name
  | clearStatus force => exact accessed (show execClearStatus force s = .next t from h) fun u => .clearStatus u force
  | regWrite name value =>
    obtain ⟨met, bus⟩ := State.attempt_busOnly (show execRegWrite name value s = .next t from h)
      fun u => .regWrite u name value
    exact ⟨State.accessRefusal_none.mp (firstRefusal_cons_none.mp met).1, bus⟩
  | _ => cases access

/-- R190's rows of these operations. -/
theorem power_of_accesses {i : Instr} (access : Instr.accesses i = true) (p : PState) :
    powerAllows i p = (p != .off) ∧ powerAfter i p = p ∧ i ≠ .openBus := by
  cases i with
  | rd8 | wr8 | rd16 | wr16 | rd24 | rdall8 | rdall24 | readRegs8 | readRegs24 | regRead | regWrite | clearStatus =>
    exact ⟨rfl, rfl, nofun⟩
  | _ => cases access

/-! ## The table (R190) -/

/-- What R190 says of an instruction that answered `t` in `s`: its gate was open, and the power state is the table's,
but where the operation goes on or was stopped by a fatal error. -/
structure PowerFollows (i : Instr) (s t : State) : Prop where
  gate    : gateOpen i s = true
  done    : t.fatal = none → t.pending = none → t.pstate = powerAfter i s.pstate
  goesOn  : t.fatal = none → t.pending ≠ none → t.pstate ≠ .off
  stopped : t.fatal ≠ none → i ≠ .openBus → t.pstate = .off

theorem gateOpen_of_accepting {i : Instr} {s : State} (ready : s.Accepting) (other : i ≠ .openBus)
    (allows : powerAllows i s.pstate = true) : gateOpen i s = true := by
  obtain ⟨alone, fatal, opened, idle⟩ := ready
  simp [gateOpen, alone, fatal, opened, idle, other, allows]

theorem gateOpen_openBus {s : State} (ready : s.openRefusal = none) : gateOpen .openBus s = true := by
  obtain ⟨alone, fatal, closed, idle⟩ := State.openRefusal_none.mp ready
  simp [gateOpen, powerAllows, alone, fatal, closed, idle]

/-- An operation that completed. -/
theorem PowerFollows.of_done {i : Instr} {s t : State} (gate : gateOpen i s = true) (fatal : t.fatal = none)
    (alone : t.pending = none) (power : t.pstate = powerAfter i s.pstate) : PowerFollows i s t :=
  ⟨gate, fun _ _ => power, fun _ more => absurd alone more, fun failed => absurd fatal failed⟩

/-- An operation that completed and left the power state alone. -/
theorem PowerFollows.of_same {i : Instr} {s t : State} (gate : gateOpen i s = true) (ready : s.Accepting)
    (same : SamePower s t) (after : powerAfter i s.pstate = s.pstate) : PowerFollows i s t := by
  obtain ⟨alone, fatal, -, -⟩ := ready
  exact .of_done gate (same.fatal.trans fatal) (same.pending.trans alone) (same.power.trans after.symm)

/-- An operation that ended in verified writes, begun while the target ran. -/
theorem PowerFollows.of_stop {i : Instr} {s t : State} {p : Params} {power : PState} {op : WriteOp}
    (gate : gateOpen i s = true) (on : power ≠ .off) (after : powerAfter i s.pstate = .configured)
    (stop : WritesStop p power op t) : PowerFollows i s t := by
  cases stop with
  | configured fatal alone power => exact .of_done gate fatal alone (power.trans after.symm)
  | failed _ fatal _ power =>
    exact ⟨gate, fun clear => by simp [clear] at fatal, fun clear => by simp [clear] at fatal, fun _ _ => power⟩
  | goesOn _ fatal more power =>
    exact ⟨gate, fun _ alone => absurd alone more, fun _ _ => power ▸ on, fun failed => absurd fatal failed⟩

theorem execOpen_power {s t : State} (h : execOpen s = .next t) : PowerFollows .openBus s t := by
  obtain ⟨ready, -⟩ := State.attempt_next h
  obtain ⟨alone, fatal, closed, -⟩ := State.openRefusal_none.mp ready
  cases opens : s.turn.opens with
  | true =>
    cases h.symm.trans (execOpen_of_opens ready opens)
    rw [State.driveOutputsLow_frame]
    exact .of_done (gateOpen_openBus ready) fatal alone rfl
  | false =>
    cases h.symm.trans (execOpen_of_unavailable ready opens)
    rw [State.raiseFatal_of_closed (s := s.begin.nextTurn.2) closed]
    exact ⟨gateOpen_openBus ready, nofun, nofun, fun _ other => absurd rfl other⟩

theorem execSetClockSpeed_power {q : Rat} {force : Bool} {s t : State} (h : execSetClockSpeed q force s = .next t) :
    PowerFollows (.setClockSpeed q force) s t := by
  obtain ⟨met, answers⟩ := State.attempt_next h
  obtain ⟨common, -⟩ := firstRefusal_cons_none.mp met
  have ready := State.commonRefusal_none.mp common
  cases answers
  exact .of_same (gateOpen_of_accepting ready nofun rfl) ready ⟨rfl, rfl, rfl⟩ rfl

theorem execOff_power {s t : State} (h : execOff s = .next t) : PowerFollows .powerOff s t := by
  obtain ⟨met, answers⟩ := State.attempt_next h
  have ready := State.commonRefusal_none.mp met
  have ⟨alone, fatal, _, _⟩ := ready
  cases answers
  rw [State.powerDown_eq]
  exact .of_done (gateOpen_of_accepting ready nofun rfl) fatal alone rfl

theorem execOn_power {s t : State} (h : execOn s = .next t) : PowerFollows .powerOn s t := by
  obtain ⟨met, answers⟩ := State.attempt_next h
  simp only [firstRefusal_cons_none, refuseIf_none, bne_eq_false_iff_eq] at met
  obtain ⟨common, off, -⟩ := met
  have ready := State.commonRefusal_none.mp common
  have ⟨alone, fatal, _, _⟩ := ready
  cases answers
  rw [State.powerUp_eq]
  exact .of_done (gateOpen_of_accepting ready nofun (by simp [powerAllows, off])) fatal alone rfl

theorem execCleanup_power {s t : State} (h : execCleanup s = .next t) : PowerFollows .cleanup s t := by
  have ready := State.commonRefusal_none.mp (State.attempt_next h).1
  have ⟨alone, fatal, _, _⟩ := ready
  cases h.symm.trans (execCleanup_of_accepting ready)
  rw [State.cleanedUp_eq]
  exact .of_done (gateOpen_of_accepting ready nofun rfl) fatal alone rfl

theorem execConfigure_power {q : ConfigRequest} {s t : State} (h : execConfigure q s = .next t) :
    PowerFollows (.configure q) s t := by
  obtain ⟨met, -⟩ := State.attempt_next h
  simp only [firstRefusal_cons_none, refuseIf_none] at met
  obtain ⟨access, mask, -⟩ := met
  have ready := State.accessRefusal_none.mp access
  obtain ⟨t, answers, stop⟩ := execConfigure_stops ready mask
  cases h.symm.trans answers
  exact .of_stop (gateOpen_of_accepting ready.1 nofun (bne_iff_ne.mpr ready.2)) ready.2 rfl stop

theorem execConfigureRetain_power {s t : State} (h : execConfigureRetain s = .next t) :
    PowerFollows .configureRetain s t := by
  obtain ⟨met, -⟩ := State.attempt_next h
  simp only [firstRefusal_cons_none] at met
  obtain ⟨access, may, -⟩ := met
  have ready := State.accessRefusal_none.mp access
  obtain ⟨t, answers, stop⟩ := execConfigureRetain_stops ready may
  cases h.symm.trans answers
  exact .of_stop (gateOpen_of_accepting ready.1 nofun (bne_iff_ne.mpr ready.2)) ready.2 rfl stop

theorem execHardRecover_power {s t : State} (h : execHardRecover s = .next t) : PowerFollows .hardRecover s t := by
  obtain ⟨met, -⟩ := State.attempt_next h
  simp only [firstRefusal_cons_none, refuseIf_none, bne_eq_false_iff_eq] at met
  obtain ⟨common, configured, may, -⟩ := met
  have ready := State.commonRefusal_none.mp common
  obtain ⟨t, answers, stop⟩ := execHardRecover_stops ready configured may
  cases h.symm.trans answers
  exact .of_stop (gateOpen_of_accepting ready nofun (by simp [powerAllows, configured])) (by decide) rfl stop

theorem execMeasure_power {s t : State} (h : execMeasure s = .next t) : PowerFollows .measure s t := by
  obtain ⟨met, -⟩ := State.attempt_next h
  simp only [State.measureRefusal, firstRefusal_cons_none, refuseIf_none, bne_eq_false_iff_eq] at met
  obtain ⟨common, configured, -⟩ := met
  have ready := State.commonRefusal_none.mp common
  have gate : gateOpen .measure s = true := gateOpen_of_accepting ready nofun (by simp [powerAllows, configured])
  cases execMeasure_effect h with
  | accessed _ _ bus => exact .of_same gate ready bus.onward.samePower rfl
  | recovered _ _ _ ends => exact .of_stop gate (by decide) configured (ends.stop ready)
  | answered _ returned => exact .of_same gate ready returned.samePower rfl

theorem execComputeTofs_power {s t : State} (h : execComputeTofs s = .next t) : PowerFollows .computeTofs s t := by
  obtain ⟨met, -⟩ := State.attempt_next h
  simp only [firstRefusal_cons_none, refuseIf_none, bne_eq_false_iff_eq] at met
  obtain ⟨common, configured, -⟩ := met
  have ready := State.commonRefusal_none.mp common
  have gate : gateOpen .computeTofs s = true := gateOpen_of_accepting ready nofun (by simp [powerAllows, configured])
  cases execComputeTofs_effect h with
  | accessed _ _ bus => exact .of_same gate ready bus.onward.samePower rfl
  | recovered _ _ _ ends => exact .of_stop gate (by decide) configured (ends.stop ready)
  | computed _ c periods returned =>
    exact .of_same gate ready (((BusOnly.begin s).onward.samePower.trans
      (s.begin.computeTofs_samePower c periods)).trans returned.onward.samePower) rfl

/-- Every instruction that answers a next state follows the table (R190). -/
theorem exec_power {i : Instr} {s t : State} (h : exec i s = .next t) : PowerFollows i s t := by
  by_cases access : Instr.accesses i = true
  · obtain ⟨ready, bus⟩ := exec_of_accesses access h
    obtain ⟨allows, after, other⟩ := power_of_accesses access s.pstate
    exact .of_same (gateOpen_of_accepting ready.1 other (allows.trans (bne_iff_ne.mpr ready.2))) ready.1
      bus.onward.samePower after
  · cases i with
    | openBus => exact execOpen_power h
    | setClockSpeed q force => exact execSetClockSpeed_power h
    | powerOff => exact execOff_power h
    | powerOn => exact execOn_power h
    | cleanup => exact execCleanup_power h
    | configure q => exact execConfigure_power h
    | configureRetain => exact execConfigureRetain_power h
    | hardRecover => exact execHardRecover_power h
    | measure => exact execMeasure_power h
    | computeTofs => exact execComputeTofs_power h
    | reservedHopF => cases (State.attempt_next (show execReservedHopF s = .next t from h)).1
    | _ => exact absurd rfl access

/-- Behind a closed gate every instruction is refused (R190, R191, R334). -/
theorem exec_refused_of_closed {i : Instr} {s : State} (closed : gateOpen i s = false) :
    ∃ r, exec i s = .refused r := by
  cases e : exec i s with
  | next t => exact absurd ((exec_power e).gate.symm.trans closed) nofun
  | fault f => cases f
  | refused r => exact ⟨r, rfl⟩

/-- Settles O11: every instruction that answers follows the table, and a resumed operation stands as its writes left
it. -/
theorem powerStateFollowsTable : Obligations.PowerStateFollowsTable := by
  refine ⟨fun i s => ⟨exec_refused_of_closed, fun t answers => ?_⟩, fun s t goesOn fatal opened steps => ?_⟩
  · have follows := exec_power answers
    exact ⟨follows.done, follows.goesOn, follows.stopped⟩
  · obtain ⟨⟨op, ws⟩, goesOn⟩ := Option.ne_none_iff_exists'.mp goesOn
    obtain ⟨t, answers, stop⟩ := step_stops_of_pending goesOn fatal fun _ => opened
    cases steps.symm.trans answers
    cases stop with
    | configured fatal alone power =>
      exact ⟨fun _ _ => power, fun _ more => absurd alone more, fun failed => absurd fatal failed⟩
    | failed _ fatal _ power =>
      exact ⟨fun clear => by simp [clear] at fatal, fun clear => by simp [clear] at fatal, fun _ => power⟩
    | goesOn _ fatal more power =>
      exact ⟨fun _ alone => absurd alone more, fun _ _ => power, fun failed => absurd fatal failed⟩

end Sys2Proof.Machine
end

section
/-! PROOFS of the statement about CLEAR_STATUS (spec/42_measurement.md R255): its two forms, on the rules of one write and
one read of INT_STATUS. -/

namespace Sys2Proof.Machine

theorem allStatus_defaultLayout : allStatus defaultLayout = 0x1F#8 := by decide

/-- Where a register may be accessed CLEAR_STATUS runs its body (R150, R255). -/
theorem execClearStatus_of_accessible {s : State} (ready : s.Accessible) (force : Bool) :
    exec (.clearStatus force) s = .next (s.begin.clearStatus force) :=
  State.attempt_of_accessible ready fun s => .going (s.clearStatus force)

/-- Not forced, the byte read goes into the mirror, and unless it is 0 its status bits are written back (R28, R255). -/
theorem State.clearStatus_of_read {s a : State} {v : Byte} (read : s.busRd8 .intStatus = (v, a)) :
    s.clearStatus false = if v = 0x00#8 then a.learn8 .intStatus v
      else (a.learn8 .intStatus v).busWr8 .intStatus (v &&& allStatus s.params.layout) := by
  have params : a.params = s.params := by
    have bus := BusOnly.rd8 s .intStatus
    rw [read] at bus
    exact bus.params
  rw [State.clearStatus, if_neg Bool.false_ne_true, read, ← params]
  rfl

/-- Settles O53: forced, one write; not forced, one read and, where it read a set bit, one write. -/
theorem clearStatusBothForms : Obligations.ClearStatusBothForms := by
  refine ⟨allStatus_defaultLayout, fun s ready => ⟨?_, ?_, _, execClearStatus_of_accessible ready false⟩⟩
  · obtain ⟨b, sent, write⟩ := s.begin.busWr8_any .intStatus (allStatus s.params.layout)
    refine ⟨b, sent, ?_⟩
    rw [execClearStatus_of_accessible ready]
    exact congrArg Host.Outcome.next write
  · rintro a rfl clean cleanBack
    obtain ⟨z, v, reads, read⟩ := s.begin.busRd8_any .intStatus
    obtain ⟨rfl, shows⟩ := reads clean
    refine ⟨v, shows, ?_⟩
    rw [execClearStatus_of_accessible ready, State.clearStatus_of_read read]
    by_cases zero : v = 0x00#8
    · simp only [if_pos zero]
      rfl
    · simp only [if_neg zero]
      let learnt : State := (s.begin.exchanged s.around.pointerless
        (.frame [0x02#8, 0x00#8] [0x00#8, v])).learn8 .intStatus v
      obtain ⟨b, sent, write⟩ := learnt.busWr8_any .intStatus (v &&& allStatus s.params.layout)
      rw [sent cleanBack] at write
      exact congrArg Host.Outcome.next write

end Sys2Proof.Machine
end

section
/-! PROOFS of the statement about SIM_PULSES (spec/42_measurement.md R245, R246): what drives of START and STOP change,
the log of a pulse and of a number of them, and the turn that draws the number. -/

namespace Sys2Proof.Machine

/-! ## What the pulses change (R245, R388) -/

/-- From `s` to `t` only the world and the log changed, and no START or STOP line moved that is not assigned. -/
structure DrivesOnly (s t : State) : Prop where
  frame : t = { s with world := t.world, log := t.log }
  start : s.params.pins.start = false → t.world.lines.start = s.world.lines.start
  stop  : s.params.pins.stop = false → t.world.lines.stop = s.world.lines.stop

theorem DrivesOnly.refl (s : State) : DrivesOnly s s := ⟨rfl, fun _ => rfl, fun _ => rfl⟩

theorem DrivesOnly.params {s t : State} (h : DrivesOnly s t) : t.params = s.params := by rw [h.frame]

theorem DrivesOnly.trans {a b c : State} (h : DrivesOnly a b) (k : DrivesOnly b c) : DrivesOnly a c := by
  have start := k.start
  have stop := k.stop
  rw [h.params] at start stop
  refine ⟨?_, fun off => (start off).trans (h.start off), fun off => (stop off).trans (h.stop off)⟩
  have frame := k.frame
  rw [h.frame] at frame
  exact frame

theorem DrivesOnly.warnUnassigned (s : State) (role : PinRole) : DrivesOnly s (s.warnUnassigned role) := by
  rw [State.warnUnassigned_eq]
  exact ⟨rfl, fun _ => rfl, fun _ => rfl⟩

theorem DrivesOnly.nextTurn (s : State) : DrivesOnly s s.nextTurn.2 := by
  have lines := s.around_follows.lines
  exact ⟨rfl, fun _ => congrArg Lines.start lines, fun _ => congrArg Lines.stop lines⟩

theorem DrivesOnly.driveLine (s : State) (role : PinRole) (l : Bool) : DrivesOnly s (s.driveLine role l) := by
  refine ⟨by rw [State.driveLine_eq], fun off => ?_, fun off => ?_⟩ <;> rw [State.driveLine_lines] <;> split
  · cases role <;> simp_all [Pins.has, Lines.driven]
  · rfl
  · cases role <;> simp_all [Pins.has, Lines.driven]
  · rfl

theorem DrivesOnly.pulse (s : State) (role : PinRole) (active : Bool) : DrivesOnly s (s.pulse role active) :=
  (DrivesOnly.driveLine s role active).trans (.driveLine ..)

theorem DrivesOnly.stopPulses (active : Bool) (k : Nat) (s : State) : DrivesOnly s (State.stopPulses active k s) := by
  induction k generalizing s with
  | zero => exact .refl s
  | succ k ih => exact ((DrivesOnly.nextTurn s).trans (.pulse ..)).trans (ih _)

/-- The state SIM_PULSES draws the number of STOP pulses in: START's pulse is over (R245, R246). -/
def State.startPulsed (s : State) (c : Cfg) : State :=
  ((s.warnUnassigned .start).pulse .start (startActive c)).warnUnassigned .stop

/-- The number of STOP pulses that SIM_PULSES draws (R246). -/
def State.stopsDrawn (s : State) (c : Cfg) : Nat := (s.startPulsed c).turn.pulses % (c.numStop + 1)

theorem State.simPulses_eq_stopPulses (s : State) (c : Cfg) :
    s.simPulses c = State.stopPulses (stopActive c) (s.stopsDrawn c) (s.startPulsed c).nextTurn.2 := rfl

theorem DrivesOnly.startPulsed (s : State) (c : Cfg) : DrivesOnly s (s.startPulsed c) :=
  ((DrivesOnly.warnUnassigned s .start).trans (.pulse ..)).trans (.warnUnassigned ..)

theorem DrivesOnly.simPulses (s : State) (c : Cfg) : DrivesOnly s (s.simPulses c) :=
  ((DrivesOnly.startPulsed s c).trans (.nextTurn _)).trans (.stopPulses ..)

/-! ## What the log shows (R245) -/

/-- The drives of a pulse (R245). -/
def pulseNotes (role : PinRole) (active : Bool) : List Observation := [.drive role active, .drive role (!active)]

/-- The log of SIM_PULSES with `k` STOP pulses: a warning stands for the pulses of a line that is not assigned
(R56, R245). -/
def simPulsesNotes (pins : Pins) (c : Cfg) (k : Nat) : List Observation :=
  (if pins.has .start then pulseNotes .start (startActive c) else [.warned (.unassigned .start)]) ++
  (if pins.has .stop then (List.replicate k (pulseNotes .stop (stopActive c))).flatten
    else [.warned (.unassigned .stop)])

theorem State.pulse_log (s : State) (role : PinRole) (active : Bool) :
    (s.pulse role active).log = s.log ++ if s.params.pins.has role then pulseNotes role active else [] := by
  rw [State.pulse, State.driveLine_eq, State.driveLine_eq]
  cases s.params.pins.has role <;> simp [pulseNotes]

/-- A pulse that a warning goes before where the line is not assigned (R56). -/
theorem State.warnedPulse_log (s : State) (role : PinRole) (active : Bool) :
    ((s.warnUnassigned role).pulse role active).log =
      s.log ++ if s.params.pins.has role then pulseNotes role active else [.warned (.unassigned role)] := by
  rw [State.pulse_log, State.warnUnassigned_eq]
  cases s.params.pins.has role <;> simp

theorem State.stopPulses_log (active : Bool) (k : Nat) (s : State) :
    (State.stopPulses active k s).log =
      s.log ++ if s.params.pins.has .stop then (List.replicate k (pulseNotes .stop active)).flatten else [] := by
  induction k generalizing s with
  | zero => simp [State.stopPulses]
  | succ k ih =>
    have params := ((DrivesOnly.nextTurn s).trans (.pulse _ .stop active)).params
    rw [State.stopPulses, ih, params, State.pulse_log]
    cases stop : s.params.pins.has .stop <;> simp [stop, List.replicate_succ]

theorem State.simPulses_log (s : State) (c : Cfg) :
    (s.simPulses c).log = s.log ++ simPulsesNotes s.params.pins c (s.stopsDrawn c) := by
  have params := ((DrivesOnly.startPulsed s c).trans (.nextTurn _)).params
  have started := ((DrivesOnly.warnUnassigned s .start).trans (.pulse _ .start (startActive c))).params
  rw [State.simPulses_eq_stopPulses, State.stopPulses_log, params, State.nextTurn_log, State.startPulsed,
    State.warnUnassigned_eq, started, State.warnedPulse_log]
  cases stop : s.params.pins.has .stop <;> simp [simPulsesNotes, stop]

/-! ## The draw (R246) -/

/-- The next turn is the script's while it has one. -/
theorem State.turn_of_script {s : State} {turn : Turn} {rest : List Turn} (h : s.world.script = turn :: rest) :
    s.turn = turn := by
  simp [State.turn, World.nextTurn, World.turnUnder, World.takeTurn, h]

/-- START's pulse takes at most two turns of the script. -/
theorem State.startPulsed_script (s : State) (c : Cfg) :
    ∃ k ≤ 2, (s.startPulsed c).world.script = s.world.script.drop k := by
  obtain ⟨-, -, j, hj, up⟩ := (s.warnUnassigned .start).driveLine_onward .start (startActive c)
  obtain ⟨-, -, k, hk, down⟩ :=
    ((s.warnUnassigned .start).driveLine .start (startActive c)).driveLine_onward .start (!startActive c)
  refine ⟨j + k, by omega, ?_⟩
  rw [State.startPulsed, State.warnUnassigned_world, State.pulse, down, up, State.warnUnassigned_world,
    List.drop_drop]

/-- The number of STOP pulses is drawn by one of the next three turns. -/
theorem State.startPulsed_turn_mem {s : State} (c : Cfg) (scripted : 3 ≤ s.world.script.length) :
    (s.startPulsed c).turn ∈ s.world.script.take 3 := by
  obtain ⟨k, hk, script⟩ := s.startPulsed_script c
  have short : k < s.world.script.length := by omega
  rw [List.drop_eq_getElem_cons short] at script
  rw [State.turn_of_script script, List.mem_take_iff_getElem]
  exact ⟨k, by omega, rfl⟩

/-- Settles O52: the log is that of the number drawn, and the drives are of START and STOP where they are assigned. -/
theorem simPulsesBranchOnPins : Obligations.SimPulsesBranchOnPins := by
  intro s c
  have drives := DrivesOnly.simPulses s c
  refine ⟨⟨s.stopsDrawn c, ?_, s.simPulses_log c⟩, fun k most scripted draws => ?_, drives.frame, drives.start,
    drives.stop⟩
  · exact Nat.le_of_lt_succ (Nat.mod_lt _ (Nat.succ_pos _))
  · have drawn : s.stopsDrawn c = k := by
      rw [State.stopsDrawn, draws _ (s.startPulsed_turn_mem c scripted)]
      exact Nat.mod_eq_of_lt (Nat.lt_succ_of_le most)
    exact drawn ▸ s.simPulses_log c

end Sys2Proof.Machine
end

section
/-! PROOFS of the statements about HARD_RECOVER and about a MEASURE that finds TRIG at the wrong level
(spec/42_measurement.md R232, R257; spec/60_exceptions.md R311): the power cycle said once, then the ten frames of the
retained configuration; a recovery in MEASURE is HARD_RECOVER's, but for its last part and for whose writes go on. -/

namespace Sys2Proof.Machine

/-! ## The power cycle (R195, R196, R257) -/

/-- What a power cycle leaves, `w` being the world (R195, R196). -/
def State.cycled (s : State) (w : World) : State :=
  { s with
    world := w
    mirror8 := s.mirror8.map Slot.marked
    mirror24 := s.mirror24.map Slot.marked
    mirror16 := s.mirror16.map Slot.marked
    pstate := .on
    log := s.log ++ [driveNote s.params.pins .enable false, .power .off, driveNote s.params.pins .oscEnable true,
      driveNote s.params.pins .enable true, .power .on] }

theorem State.powerCycle_eq (s : State) : s.powerDown.powerUp = s.cycled s.powerDown.powerUp.world := by
  rw [State.powerUp_eq, State.powerDown_eq, State.cycled]
  simp only [List.append_assoc, List.cons_append, List.nil_append]

/-- The power cycle takes at most seven turns of the script. -/
theorem State.powerCycle_clean {s : State} {n : Nat} (clean : s.CleanNext (n + 7)) :
    s.powerDown.powerUp.CleanNext n := by
  obtain ⟨j, hj, down⟩ := s.powerDown_script
  obtain ⟨-, -, -, -, k, hk, up⟩ := s.powerDown.powerUp_onward
  refine clean.after (k := j + k) ?_ (by omega)
  rw [up, down, List.drop_drop]

theorem State.powerCycle_lines (s : State) : s.powerDown.powerUp.world.lines = { s.world.lines with
    oscEnable := s.params.pins.oscEnable || s.world.lines.oscEnable
    enable := s.params.pins.enable || s.world.lines.enable } := by
  rw [s.powerDown.powerUp_onward.1, s.powerDown_params, s.powerDown_lines_eq]
  cases s.params.pins.enable <;> rfl

theorem State.powerCycle_time (s : State) :
    s.world.time + s.params.tResetMin + s.params.tSettle ≤ s.powerDown.powerUp.world.time := by
  have down := s.powerDown_time
  obtain ⟨-, up, -⟩ := s.powerDown.powerUp_onward
  rw [s.powerDown_params] at up
  linarith

/-- The power cycle resets the target where ENABLE is assigned, and released from its reset it only drifts
(R361, R372). -/
theorem State.powerCycle_target {s : State} (assigned : s.params.pins.enable = true) :
    (Target.inReset s.params).Drifts s.params.layout s.powerDown.powerUp.world.target := by
  obtain ⟨reset, -, longEnough⟩ := s.powerDown_resets assigned
  have drifts := s.powerDown.powerUp_target fun _ => .inr (by rw [s.powerDown_params]; exact longEnough)
  rwa [reset, s.powerDown_params] at drifts

theorem State.powerCycle_coarseOvf {s : State} (assigned : s.params.pins.enable = true) :
    s.powerDown.powerUp.world.target.coarseOvf =
      joinHalf s.params.reset8.coarseOvfH s.params.reset8.coarseOvfL :=
  have drifts := State.powerCycle_target assigned
  congrArg₂ joinHalf (drifts.keeps .coarseOvfH (by decide) (by decide))
    (drifts.keeps .coarseOvfL (by decide) (by decide))

/-! ## HARD_RECOVER (R257) -/

theorem execHardRecover_of_configured {s : State} (ready : s.Accepting) (configured : s.pstate = .configured)
    (may : s.retainRefusal = none) : exec .hardRecover s = (s.begin.recover .hardRecover).outcome := by
  have met : firstRefusal
      [s.commonRefusal, refuseIf (s.pstate != .configured) .wrongPowerState, s.retainRefusal] = none := by
    simp [firstRefusal_none, State.commonRefusal_none.mpr ready, configured, may]
  show execHardRecover s = _
  rw [execHardRecover, met]
  rfl

/-- A recovery is the power cycle and the writes the mirror gave before it (R43, R257). -/
theorem State.recover_of_retained {s : State} {ws : List VerifiedWrite} (h : s.retained = some ws) (op : WriteOp) :
    s.recover op = s.powerDown.powerUp.finishWrites op ws := by
  obtain ⟨-, -, retained, -⟩ := s.powerCycle_keeps
  exact State.rewrite_of_retained (retained.trans h) op

/-- Settles O44: the five writes of the mirror's bytes begin where the power cycle ended. -/
theorem hardRecoverRestoresConfiguration : Obligations.HardRecoverRestoresConfiguration := by
  intro s v1 v2 v3 mh ml oh ol ready configured cfg config1 config2 intMask stopMaskH stopMaskL clockOvfH clockOvfL clean
  have retained := State.retained_of_values config1 config2 intMask stopMaskH stopMaskL clockOvfH clockOvfL
  have may : s.retainRefusal = none := State.retainRefusal_none_of_ne cfg (by rw [retained]; exact nofun)
  have unarmed := withoutStartMeas_sentByte s.params.layout .config1 v1
  have cleanAfter : s.begin.powerDown.powerUp.CleanNext 10 := State.powerCycle_clean (s := s.begin) clean
  have lines := s.begin.powerCycle_lines
  have time := s.begin.powerCycle_time
  have coarse := State.powerCycle_coarseOvf (s := s.begin)
  have runs := (execHardRecover_of_configured ready configured may).trans
    (congrArg Run.outcome (State.recover_of_retained (s := s.begin) retained .hardRecover))
  rw [s.begin.powerCycle_eq] at cleanAfter runs
  generalize s.begin.powerDown.powerUp.world = cycledWorld at *
  obtain ⟨w, x, writes, readBack, holds, keeps⟩ := State.finishWrites_clean .hardRecover
    (s := s.begin.cycled cycledWorld) (sentByte s.params.layout .config2 v2) (sentByte s.params.layout .intMask v3)
    (joinHalf mh ml) (joinHalf oh ol) cleanAfter unarmed
  refine ⟨_, x, runs.trans (congrArg Run.outcome writes), readBack, ?_, parityBit_sentByte .., ?_, holds,
    keeps.lines.trans lines, fun assigned => keeps.coarseOvf.trans (coarse assigned), time.trans keeps.time⟩
  · exact (congrArg (startMeasBit s.params.layout) unarmed.symm).trans (startMeasBit_withoutStartMeas ..)
  · rw [State.afterWrites_eq, configured]
    rfl

/-! ## A recovery in MEASURE (R232, R311) -/

/-- The same state, writes that go on being those of operation `op` (R200). -/
def State.withPendingOp (s : State) (op : WriteOp) : State :=
  { s with pending := s.pending.map fun q => { q with op := op } }

theorem State.withPendingOp_of_alone {s : State} (alone : s.pending = none) (op : WriteOp) : s.withPendingOp op = s := by
  rw [State.withPendingOp, alone, Option.map_none, ← alone]

/-- The same run, writes that go on being those of operation `op` (R200). -/
def Run.continuedAs (op : WriteOp) : Run → Run
  | .going s => .going s
  | .ended s => .ended (s.withPendingOp op)
  | .refused r => .refused r

theorem BusOnly.pending {s t : State} (h : BusOnly s t) : t.pending = s.pending := by rw [h.frame]

theorem State.raiseFatal_pending (s : State) (e : FatalError) : (s.raiseFatal e).pending = s.pending := by
  unfold State.raiseFatal
  dsimp only
  split
  · rw [State.powerDown_eq]
    rfl
  · rfl

theorem State.writeFailed_pending (s : State) (a : Addr) (v : Nat) : (s.writeFailed a v).pending = s.pending :=
  State.raiseFatal_pending ..

/-- Verified writes ask of their operation only whose they are when they go on (R200). -/
theorem State.writeAll_continuedAs (op op' : WriteOp) (ws : List VerifiedWrite) {s : State} (alone : s.pending = none) :
    State.writeAll op' ws s = (State.writeAll op ws s).continuedAs op' := by
  induction ws generalizing s with
  | nil => rfl
  | cons w rest ih =>
    have tried := (BusOnly.tries w s.attemptsNow s).pending
    unfold State.writeAll
    split
    · rename_i u matched
      rw [matched] at tried
      exact ih (((BusOnly.learnVerified u w).pending.trans tried).trans alone)
    · rename_i u failed
      rw [failed] at tried
      have alone : u.pending = none := tried.trans alone
      split
      · rw [Run.continuedAs, State.withPendingOp_of_alone ((State.writeFailed_pending ..).trans alone)]
      · rfl

/-- Verified writes that ended their step kept the outcome, and gave up unless they go on (R200, R316). -/
theorem State.writeAll_ended {s u : State} {op : WriteOp} {ws : List VerifiedWrite} (opened : s.busOpen = true)
    (ended : State.writeAll op ws s = .ended u) :
    u.outcome = s.outcome ∧ (u.pending = none → u.fatal = some .configurationWriteFailure) := by
  have gives := State.writeAll_gives op ws s
  rw [ended] at gives
  obtain gaveUp | ⟨x, rest, bus, -, -, rfl, -⟩ := gives
  · rw [(gaveUp.fatal opened).frame]
    exact ⟨rfl, fun _ => rfl⟩
  · rw [bus.frame]
    exact ⟨rfl, nofun⟩

/-- At the wrong TRIG level MEASURE is the recovery begun at the sample, with no arming write (R232). -/
theorem execMeasure_of_wrongLevel {s : State} {c : Cfg} {c1 : Byte} {n : Nat} (ready : s.MeasureReady c c1 n)
    (present : s.retained ≠ none) (wired : s.params.pins.trig1 = true)
    (wrong : s.sampled.world.level s.params .trig1 ≠ trigIdle c) :
    exec .measure s = (s.sampled.recover .measure).outcome := by
  have sampled : s.sampled = s.begin.nextTurn.2 := if_pos wired
  rw [sampled] at wrong ⊢
  have may : s.begin.retainRefusal = none := State.retainRefusal_none_of_ne (by simp [ready.cfg]) present
  rw [execMeasure_of_ready ready, State.measure_of_wrongLevel (s := s.begin) c1 wired wrong may,
    Run.outcome_andThen_ended]

/-- Settles O50: by what the recovery's verified writes end in. -/
theorem wrongPolarityRecovers : Obligations.WrongPolarityRecovers := by
  intro s c c1 n ready present wired wrong
  rw [execMeasure_of_wrongLevel ready present wired wrong]
  have kept : s.sampled.outcome = s.outcome ∧ s.sampled.retained = s.retained ∧
      (s.Accepting → s.sampled.Accepting) := by
    rw [State.sampled, if_pos wired]
    exact ⟨rfl, rfl, id⟩
  obtain ⟨outcome, retained, accepts⟩ := kept
  obtain ⟨ws, found⟩ := Option.ne_none_iff_exists'.mp (retained ▸ present)
  obtain ⟨-, -, -, acceptsAfter⟩ := s.sampled.powerCycle_keeps
  obtain ⟨alone, -, opened, -⟩ := acceptsAfter (accepts ready.accepting)
  have same : s.sampled.powerDown.powerUp.outcome = s.outcome := by rw [State.powerCycle_eq]; exact outcome
  rw [State.recover_of_retained found, State.recover_of_retained found]
  have asMeasure := State.writeAll_continuedAs .hardRecover .measure ws alone
  cases writes : State.writeAll .hardRecover ws s.sampled.powerDown.powerUp with
  | going u =>
    rw [writes] at asMeasure
    rw [State.finishWrites_of_going writes, State.finishWrites_of_going asMeasure, State.afterWrites_eq,
      State.afterWrites_eq]
    simp [Run.outcome]
  | ended u =>
    rw [writes] at asMeasure
    obtain ⟨keeps, fatal⟩ := State.writeAll_ended opened writes
    rw [State.finishWrites_of_ended writes, State.finishWrites_of_ended asMeasure]
    refine ⟨keeps.trans same, fun stopped => ⟨?_, fatal stopped⟩, fun q goesOn => ?_⟩
    · exact congrArg Host.Outcome.next (State.withPendingOp_of_alone stopped .measure)
    · simp only [Run.outcome, State.withPendingOp, goesOn, Option.map_some]
  | refused r => exact absurd writes (State.writeAll_ends _ _ _ r)

end Sys2Proof.Machine
end

section
/-! PROOFS of the statements about a MEASURE that finds TRIG idle (spec/42_measurement.md R230 to R253): the run followed
from one of its moments (`State.sampled` to `State.completed`) to the next, what has not changed by then, and its four
ends. -/

namespace Sys2Proof.Machine

/-! ## What has not changed before the results are read (R230, R252) -/

/-- From `s` to `t` only the world, `mstate`, the yield and the log changed. -/
def Underway (s t : State) : Prop :=
  t = { s with world := t.world, mstate := t.mstate, result := t.result, log := t.log }

theorem Underway.trans {a b c : State} (h : Underway a b) (k : Underway b c) : Underway a c := by
  rw [Underway, h] at k
  exact k

theorem Underway.params {s t : State} (h : Underway s t) : t.params = s.params := by rw [h]

theorem DrivesOnly.underway {s t : State} (h : DrivesOnly s t) : Underway s t := by
  rw [h.frame]
  rfl

theorem Underway.begin (s : State) : Underway s s.begin := rfl

theorem Underway.moveTo (s : State) (m : MState) : Underway s (s.moveTo m) := rfl

theorem Underway.delay (s : State) (d : Rat) : Underway s (s.delay d) := rfl

theorem Underway.waitLine (s : State) (role : PinRole) (level : Bool) (d : Rat) :
    Underway s (s.waitLine role level d).2 := rfl

theorem Underway.busWr8 (s : State) (r : Reg8) (v : Byte) : Underway s (s.busWr8 r v) := by
  obtain ⟨b, -, write⟩ := s.busWr8_any r v
  rw [write]
  rfl

theorem Underway.sampled (s : State) : Underway s s.sampled := by
  unfold State.sampled
  split
  · exact (Underway.begin s).trans (DrivesOnly.nextTurn _).underway
  · exact (Underway.begin s).trans (DrivesOnly.warnUnassigned _ .trig1).underway

section
variable (s : State) (c : Cfg) (c1 : Byte)

theorem Underway.armedBy : Underway s (s.armedBy c1) := ((Underway.sampled s).trans (.busWr8 ..)).trans (.moveTo ..)

theorem Underway.triggerWait : Underway s (s.triggerWait c c1).2 := (Underway.armedBy s c1).trans (.waitLine ..)

theorem Underway.triggered : Underway s (s.triggered c c1) := by
  refine .trans ?_ (.moveTo ..)
  split
  · exact .triggerWait s c c1
  · exact .armedBy s c1

theorem Underway.pulsed : Underway s (s.pulsed c c1) := by
  refine .trans ?_ (.moveTo ..)
  split
  · exact (Underway.triggered s c c1).trans (DrivesOnly.simPulses ..).underway
  · exact .triggered s c c1

theorem Underway.interruptWait : Underway s (s.interruptWait c c1).2 := (Underway.pulsed s c c1).trans (.waitLine ..)

theorem Underway.completed : Underway s (s.completed c c1) := by
  unfold State.completed
  split
  · exact .interruptWait s c c1
  · exact ((Underway.pulsed s c c1).trans (DrivesOnly.warnUnassigned _ .int1).underway).trans (.delay ..)

end

/-! ## Step by step (R230) -/

section
variable {u : State} {c : Cfg}

theorem State.checkPolarity_of_wired (wired : u.params.pins.trig1 = true)
    (idle : u.nextTurn.2.world.level u.params .trig1 = trigIdle c) : u.checkPolarity c = .going u.nextTurn.2 :=
  (if_pos wired).trans (if_pos idle)

theorem State.checkPolarity_of_unwired (unwired : u.params.pins.trig1 ≠ true) :
    u.checkPolarity c = .going (u.warnUnassigned .trig1) := by
  simp only [State.checkPolarity, if_neg unwired]

theorem State.awaitTrigger_of_seen (wired : u.params.pins.trig1 = true)
    (seen : (u.waitLine .trig1 (trigActive c) u.params.tTrigDeadline).1 = .seen) : u.awaitTrigger c =
      .going ((u.waitLine .trig1 (trigActive c) u.params.tTrigDeadline).2.moveTo .triggerSeen) := by
  rw [State.awaitTrigger, if_pos wired]
  split <;> simp_all

theorem State.awaitTrigger_of_timeout (wired : u.params.pins.trig1 = true)
    (timeout : (u.waitLine .trig1 (trigActive c) u.params.tTrigDeadline).1 = .timeout) : u.awaitTrigger c =
      .ended ((u.waitLine .trig1 (trigActive c) u.params.tTrigDeadline).2.raiseMeasurement .timedOut
        (triggerTimeout c)) := by
  rw [State.awaitTrigger, if_pos wired]
  split <;> simp_all

theorem State.awaitTrigger_of_unwired (unwired : u.params.pins.trig1 ≠ true) :
    u.awaitTrigger c = .going (u.moveTo .triggerSeen) := by
  rw [State.awaitTrigger, if_neg unwired]

theorem State.awaitInterrupt_of_seen (wired : u.params.pins.int1 = true)
    (seen : (u.waitLine .int1 u.params.intActive (interruptDeadline u.params c)).1 = .seen) : u.awaitInterrupt c =
      .going (u.waitLine .int1 u.params.intActive (interruptDeadline u.params c)).2 := by
  rw [State.awaitInterrupt, if_pos wired]
  split <;> simp_all

theorem State.awaitInterrupt_of_timeout (wired : u.params.pins.int1 = true)
    (timeout : (u.waitLine .int1 u.params.intActive (interruptDeadline u.params c)).1 = .timeout) :
    u.awaitInterrupt c = .ended ((u.waitLine .int1 u.params.intActive (interruptDeadline u.params c)).2.raiseMeasurement
      .timedOut .interruptTimeout) := by
  rw [State.awaitInterrupt, if_pos wired]
  split <;> simp_all

theorem State.awaitInterrupt_of_unwired (unwired : u.params.pins.int1 ≠ true) : u.awaitInterrupt c =
    .going ((u.warnUnassigned .int1).delay (interruptDeadline u.params c)) := by
  rw [State.awaitInterrupt, if_neg unwired]

end

/-! ## From moment to moment (R230) -/

section
variable {s : State} {c : Cfg} {c1 : Byte}

/-- Step 1 goes on where TRIG is idle or not wired (R232). -/
theorem State.checkPolarity_begin (idle : s.TrigIdle c) : s.begin.checkPolarity c = .going s.sampled := by
  rw [State.TrigIdle] at idle
  rw [State.sampled] at idle ⊢
  split
  · rename_i wired
    rw [if_pos wired] at idle
    exact State.checkPolarity_of_wired (u := s.begin) wired (idle wired)
  · rename_i unwired
    exact State.checkPolarity_of_unwired (u := s.begin) unwired

/-- Step 3 goes on where TRIG was seen active or is not wired (R234). -/
theorem State.awaitTrigger_armedBy (seen : s.TriggerSeen c c1) :
    (s.armedBy c1).awaitTrigger c = .going (s.triggered c c1) := by
  have params := (Underway.armedBy s c1).params
  rw [State.triggered, State.triggerWait, ← params]
  split
  · rename_i wired
    rw [State.TriggerSeen, State.triggerWait, ← params] at seen
    exact State.awaitTrigger_of_seen wired (seen wired)
  · rename_i unwired
    exact State.awaitTrigger_of_unwired unwired

/-- Step 4 always goes on (R245). -/
theorem State.supplyPulses_triggered : (s.triggered c c1).supplyPulses c = .going (s.pulsed c c1) := by
  rw [State.supplyPulses, (Underway.triggered s c c1).params, State.pulsed]

/-- Step 5 goes on where INT was seen active or is not wired (R248, R249). -/
theorem State.awaitInterrupt_pulsed (seen : s.InterruptSeen c c1) :
    (s.pulsed c c1).awaitInterrupt c = .going (s.completed c c1) := by
  have params := (Underway.pulsed s c c1).params
  rw [State.completed, State.interruptWait, ← params]
  split
  · rename_i wired
    rw [State.InterruptSeen, State.interruptWait, ← params] at seen
    exact State.awaitInterrupt_of_seen wired (seen wired)
  · rename_i unwired
    exact State.awaitInterrupt_of_unwired unwired

/-- MEASURE from step 3 on, TRIG being idle or not wired (R230). -/
theorem State.measure_of_idle (idle : s.TrigIdle c) : s.begin.measure c c1 =
    ((((s.armedBy c1).awaitTrigger c).andThen (State.supplyPulses c)).andThen (State.awaitInterrupt c)).andThen
      (State.readAndConvert c) := by
  have armed : State.arm c1 s.sampled = .going (s.armedBy c1) := by
    rw [State.armedBy, ← (Underway.sampled s).params]
    rfl
  rw [State.measure, State.checkPolarity_begin idle, Run.andThen, armed, Run.andThen]

/-- MEASURE from step 5 on, TRIG seen active or not wired (R230). -/
theorem State.measure_of_triggerSeen (idle : s.TrigIdle c) (seen : s.TriggerSeen c c1) : s.begin.measure c c1 =
    ((s.pulsed c c1).awaitInterrupt c).andThen (State.readAndConvert c) := by
  rw [State.measure_of_idle idle, State.awaitTrigger_armedBy seen, Run.andThen, State.supplyPulses_triggered,
    Run.andThen]

end

/-! ## The ends of a MEASURE (R230) -/

section
variable {s : State} {c : Cfg} {c1 : Byte} {n : Nat}

theorem execMeasure_of_triggerTimeout (ready : s.MeasureReady c c1 n) (idle : s.TrigIdle c)
    (wired : s.params.pins.trig1 = true) (timeout : (s.triggerWait c c1).1 = .timeout) :
    exec .measure s = .next ((s.triggerWait c c1).2.raiseMeasurement .timedOut (triggerTimeout c)) := by
  have params := (Underway.armedBy s c1).params
  rw [State.triggerWait, ← params] at timeout ⊢
  rw [← params] at wired
  rw [execMeasure_of_ready ready, State.measure_of_idle idle, State.awaitTrigger_of_timeout wired timeout]
  rfl

theorem execMeasure_of_interruptTimeout (ready : s.MeasureReady c c1 n) (idle : s.TrigIdle c)
    (seen : s.TriggerSeen c c1) (wired : s.params.pins.int1 = true) (timeout : (s.interruptWait c c1).1 = .timeout) :
    exec .measure s = .next ((s.interruptWait c c1).2.raiseMeasurement .timedOut .interruptTimeout) := by
  have params := (Underway.pulsed s c c1).params
  rw [State.interruptWait, ← params] at timeout ⊢
  rw [← params] at wired
  rw [execMeasure_of_ready ready, State.measure_of_triggerSeen idle seen,
    State.awaitInterrupt_of_timeout wired timeout]
  rfl

theorem execMeasure_of_interruptSeen (ready : s.MeasureReady c c1 n) (idle : s.TrigIdle c)
    (trigger : s.TriggerSeen c c1) (interrupt : s.InterruptSeen c c1) :
    exec .measure s = ((s.completed c c1).readAndConvert c).outcome := by
  rw [execMeasure_of_ready ready, State.measure_of_triggerSeen idle trigger, State.awaitInterrupt_pulsed interrupt,
    Run.andThen]

end

theorem State.raiseMeasurement_eq (s : State) (terminal : MState) (o : MeasOutcome) :
    s.raiseMeasurement terminal o = { s with
      mstate := .idle
      outcome := some o
      result := .outcome o
      log := s.log ++ [.moved terminal, .reported o, .moved .idle] } := by
  simp [State.raiseMeasurement, State.finish, State.moveTo, State.note, State.yields]

/-- An error taken before the results are read leaves nothing but the world, the outcome, the yield and the log changed
(R251, R326). -/
theorem Underway.raiseMeasurement {s u : State} (h : Underway s u) (idle : s.mstate = .idle) (terminal : MState)
    (o : MeasOutcome) : u.raiseMeasurement terminal o = { s with
      world := u.world
      outcome := some o
      result := .outcome o
      log := u.log ++ [.moved terminal, .reported o, .moved .idle] } := by
  rw [State.raiseMeasurement_eq, h, ← idle]

/-! ## The trigger wait times out (R234) -/

/-- With TRIG wired the log up to the trigger wait is the arming frame and the move to its state (R233). -/
theorem State.triggerWait_log {s : State} (wired : s.params.pins.trig1 = true) (c : Cfg) (c1 : Byte) :
    (s.triggerWait c c1).2.log =
      [.sent [0x40#8, armByte s.params.layout c1], .moved .armedWaitingTrigger] := by
  obtain ⟨b, -, write⟩ := s.sampled.busWr8_any .config1 (armByte s.params.layout c1)
  rw [State.triggerWait, State.waitLine_log, State.armedBy, write, State.sampled, if_pos wired]
  rfl

/-- Settles O49: the wait's error, with nothing but the arming frame before it. -/
theorem triggerTimeoutNamedByPolarity : Obligations.TriggerTimeoutNamedByPolarity := by
  intro s c c1 n ready idle wired timeout
  obtain ⟨-, -, -, atRest⟩ := ready.accepting
  refine ⟨parityBit_armByte .., ?_⟩
  rw [execMeasure_of_triggerTimeout ready idle wired timeout,
    (Underway.triggerWait s c c1).raiseMeasurement atRest, State.triggerWait_log wired]
  rfl

/-! ## The interrupt wait times out (R251) -/

/-- A wait that times out took its deadline, from its first clock reading on (R235). -/
theorem World.poll_timeout_time {p : Params} {role : PinRole} {level : Bool} {d t0 : Rat} {rounds : Nat} {w : World}
    (timeout : (World.poll p role level d t0 rounds w).1 = .timeout) :
    t0 + d ≤ (World.poll p role level d t0 rounds w).2.time := by
  induction rounds generalizing w with
  | zero =>
    simp only [World.poll] at timeout ⊢
    split at timeout
    · cases timeout
    · rename_i inactive
      rw [if_neg inactive]
      generalize (World.turnUnder p _ (World.turnUnder p _ w).2).2 = u
      have passes : u.time + (t0 + d - u.time) ≤ (u.elapse p none (t0 + d - u.time)).time := add_le_clockAfter ..
      linarith
  | succ rounds ih =>
    simp only [World.poll] at timeout ⊢
    split at timeout
    · cases timeout
    · rename_i inactive
      rw [if_neg inactive]
      split at timeout
      · rename_i passed
        rw [if_pos passed]
        exact passed
      · rename_i early
        rw [if_neg early]
        exact ih timeout

theorem World.waitLine_timeout_time {p : Params} {role : PinRole} {level : Bool} {d : Rat} {w : World}
    (timeout : (w.waitLine p role level d).1 = .timeout) : w.time + d ≤ (w.waitLine p role level d).2.time := by
  have first := (w.nextTurn_follows p).time
  have waited := World.poll_timeout_time timeout
  exact (add_le_add_left first d).trans waited

/-- Settles O48: the wait's error, taken before any result is read. -/
theorem interruptTimeoutTouchesNoResult : Obligations.InterruptTimeoutTouchesNoResult := by
  intro s c c1 n ready idle seen wired timeout
  obtain ⟨-, -, -, atRest⟩ := ready.accepting
  exact ⟨_, execMeasure_of_interruptTimeout ready idle seen wired timeout,
    (Underway.interruptWait s c c1).raiseMeasurement atRest .., World.waitLine_timeout_time timeout⟩

/-! ## The results are read and converted (R250) -/

/-- `s` when MEASURE has read the results `x` and not yet converted them (R169, R250). -/
def State.withRead (s : State) (x : File24 Word24) (w : World) (m : MState) (y : Yield) (l : List Observation) : State :=
  { s with world := w, mirror24 := x.map Slot.fresh, mstate := m, result := y, log := l }

@[simp] theorem State.withRead_results24 (s : State) (x : File24 Word24) (w : World) (m : MState) (y : Yield)
    (l : List Observation) : (s.withRead x w m y l).results24 = x := rfl

@[simp] theorem State.withRead_results24Live (s : State) (x : File24 Word24) (w : World) (m : MState) (y : Yield)
    (l : List Observation) : (s.withRead x w m y l).results24Live = true := rfl

/-- Step 6 reads one block, which is the registers of a target that is not busy where the read is clean (R169). -/
theorem Underway.readRegs24 {s d : State} (h : Underway s d) : ∃ x w m y l, d.readRegs24 = s.withRead x w m y l ∧
    d.BulkReadLeaves w ∧
    (d.turn.noise = .clean → d.around.target.busy = false → x = d.around.target.r24) := by
  obtain ⟨rx, w, -, bulk, shown, read⟩ := d.busRdAll24_any
  refine ⟨file24OfBytes rx.tail, w, d.mstate, d.result,
    d.log ++ [.frame (commandByte true false 0x10#6 :: zeros 39) rx], ?_, bulk.leaves,
    fun clean idle => file24OfBytes_of_block ((shown clean).2 idle)⟩
  rw [State.readRegs24, read, h]
  rfl

/-- A ready MEASURE may convert what it has read (R281, R282). -/
theorem State.MeasureReady.tofRefusal {s : State} {c : Cfg} {c1 : Byte} {n : Nat} (ready : s.MeasureReady c c1 n)
    (x : File24 Word24) (w : World) (m : MState) (y : Yield) (l : List Observation) :
    (s.withRead x w m y l).tofRefusal = none := by
  obtain ⟨c2, config2, agrees⟩ := ready.config2
  have live := s.withRead_results24Live x w m y l
  unfold State.tofRefusal
  simp only [live]
  simp only [State.withRead, ready.cfg, ready.calPeriods, ready.config1, config2, agrees]
  rfl

/-- MEASURE's return with the pulse count of the results it converted (R250, R330). -/
def State.succeeded (s : State) (q : Rat) (c : Cfg) : State :=
  let v := s.latchTofs q c
  (v.moveTo (.success v.pulseCount)).finish (.success v.pulseCount)

section
variable {s d : State} {c : Cfg} {c1 : Byte} {n : Nat} {x : File24 Word24} {w : World} {m : MState} {y : Yield}
  {l : List Observation}

/-- Step 6 off the zero guard (R250, R283). -/
theorem State.MeasureReady.readAndConvert_calibrated {q : Rat} (ready : s.MeasureReady c c1 n)
    (read : d.readRegs24 = s.withRead x w m y l) (calibrated : calCountOf n x.calibration1 x.calibration2 = some q) :
    d.readAndConvert c = .going ((s.withRead x w m y l).succeeded q c) := by
  have may := ready.tofRefusal x w m y l
  have periods : (s.withRead x w m y l).calPeriods.getD 0 = n := by simp [State.withRead, ready.calPeriods]
  simp only [State.readAndConvert, read, may, State.computeTofs, periods, State.withRead_results24, calibrated]
  rfl

/-- Step 6 under the zero guard (R250, R284). -/
theorem State.MeasureReady.readAndConvert_uncalibrated (ready : s.MeasureReady c c1 n)
    (read : d.readRegs24 = s.withRead x w m y l) (uncalibrated : calCountOf n x.calibration1 x.calibration2 = none) :
    d.readAndConvert c =
      .ended ((s.withRead x w m y l).latchNoCalibration.raiseMeasurement .protocolError .noCalibration) := by
  have may := ready.tofRefusal x w m y l
  have periods : (s.withRead x w m y l).calPeriods.getD 0 = n := by simp [State.withRead, ready.calPeriods]
  simp only [State.readAndConvert, read, may, State.computeTofs, periods, State.withRead_results24, uncalibrated]

end

/-- MEASURE returned `o` in `t`, and changed only what R252 and R280 name. -/
def ReturnsOutcome (s : State) (o : MeasOutcome) (t : State) : Prop :=
  t = { s with
    world := t.world
    mirror24 := t.mirror24
    calCount := t.calCount
    normLsb := t.normLsb
    tof := t.tof
    delta := t.delta
    pulseCount := t.pulseCount
    delivered := t.delivered
    outcome := some o
    result := .outcome o
    log := t.log }

theorem Underway.returnsError {s u : State} (h : Underway s u) (idle : s.mstate = .idle) (terminal : MState)
    (o : MeasOutcome) : ReturnsOutcome s o (u.raiseMeasurement terminal o) := by
  rw [h.raiseMeasurement idle]
  rfl

/-- Step 6 returns a pulse count or NoCalibrationError (R250, R284). -/
theorem State.MeasureReady.readAndConvert {s d : State} {c : Cfg} {c1 : Byte} {n : Nat}
    (ready : s.MeasureReady c c1 n) (h : Underway s d) : ∃ t o, (d.readAndConvert c).outcome = .next t ∧
      o ≠ .triggerPolarity ∧ ReturnsOutcome s o t := by
  obtain ⟨x, w, m, y, l, read, -, -⟩ := h.readRegs24
  obtain ⟨-, -, -, idle⟩ := ready.accepting
  cases count : calCountOf n x.calibration1 x.calibration2 with
  | some q =>
    rw [ready.readAndConvert_calibrated read count]
    refine ⟨_, .success ((s.withRead x w m y l).latchTofs q c).pulseCount, rfl, MeasOutcome.noConfusion, ?_⟩
    rw [ReturnsOutcome, idle]
    rfl
  | none =>
    rw [ready.readAndConvert_uncalibrated read count, State.raiseMeasurement_eq]
    refine ⟨_, .noCalibration, rfl, MeasOutcome.noConfusion, ?_⟩
    rw [ReturnsOutcome, idle]
    rfl

theorem triggerTimeout_ne_triggerPolarity (c : Cfg) : triggerTimeout c ≠ .triggerPolarity := by
  unfold triggerTimeout
  split <;> exact nofun

/-- A wait that did not see its level timed out (R235). -/
theorem WaitResult.timeout_of_ne_seen {r : WaitResult} (h : r ≠ .seen) : r = .timeout := by
  cases r with
  | seen => exact absurd rfl h
  | timeout => rfl

/-- Settles O46: the trigger wait times out, or the interrupt wait does, or the results are read. -/
theorem measureYieldsOneOutcome : Obligations.MeasureYieldsOneOutcome := by
  intro s c c1 n ready idle
  obtain ⟨-, -, -, atRest⟩ := ready.accepting
  by_cases trigger : s.TriggerSeen c c1
  · by_cases interrupt : s.InterruptSeen c c1
    · rw [execMeasure_of_interruptSeen ready idle trigger interrupt]
      exact ready.readAndConvert (.completed s c c1)
    · obtain ⟨wired, unseen⟩ := Classical.not_imp.mp interrupt
      exact ⟨_, .interruptTimeout,
        execMeasure_of_interruptTimeout ready idle trigger wired (WaitResult.timeout_of_ne_seen unseen), nofun,
        (Underway.interruptWait s c c1).returnsError atRest ..⟩
  · obtain ⟨wired, unseen⟩ := Classical.not_imp.mp trigger
    exact ⟨_, _, execMeasure_of_triggerTimeout ready idle wired (WaitResult.timeout_of_ne_seen unseen),
      triggerTimeout_ne_triggerPolarity c, (Underway.triggerWait s c c1).returnsError atRest ..⟩

/-! ## The pulse count (R291) -/

/-- The slots of a mode are present where its five TIME registers are not 0 (R286 to R291). -/
theorem tofsOf_count (f : NumberSystem) (mode : Nat) (norm clockPeriod : Rat) (avg : Nat) (x : File24 Word24) :
    (tofsOf f mode norm clockPeriod avg x).count =
      (if mode = 1 then [x.time1, x.time2, x.time3, x.time4, x.time5]
        else [x.time2, x.time3, x.time4, x.time5, x.time6]).countP (fun v => v != 0#24) := by
  unfold tofsOf Tofs.count Tofs.toList
  split <;> simp [List.countP_cons, tofMode1_isSome, tofMode2_isSome]

/-- Off the zero guard `cal_count` is the exact quotient (R283). -/
theorem calCountOf_of_calibrated {n : Nat} {c1 c2 : Word24} (periods : n ≠ 1) (differ : c2 ≠ c1) :
    calCountOf n c1 c2 = some ((((c2.toNat : Int) - c1.toNat : Int) : Rat) / ((n : Rat) - 1)) := by
  rw [calCountOf, if_neg (not_or.mpr ⟨periods, differ⟩)]
  push_cast
  rfl

/-- Settles O47: the block read is that of the target's registers, off the zero guard. -/
theorem measureSucceedsWithPulseCount : Obligations.MeasureSucceedsWithPulseCount := by
  intro s c c1 n ready idle trigger interrupt d x clean notBusy calibrated periods
  obtain ⟨_, w, m, y, l, read, leaves, shown⟩ := (Underway.completed s c c1).readRegs24
  obtain rfl := shown clean notBusy
  have count := calCountOf_of_calibrated periods calibrated
  obtain ⟨-, r24, -⟩ := leaves.idle notBusy
  have runs := (execMeasure_of_interruptSeen ready idle trigger interrupt).trans
    (congrArg Run.outcome (ready.readAndConvert_calibrated read count))
  exact ⟨_, _, runs, tofsOf_count .., rfl, rfl, rfl, rfl, rfl, rfl, leaves.lines, r24, rfl⟩

end Sys2Proof.Machine
end

section
/-! PROOFS of the statements about COMPUTE_TOFS (spec/43_calibration.md R280 to R305): what it needs of `cfg` and the
mirror, the one state it answers, and what the zero guard reports, in COMPUTE_TOFS and in MEASURE. -/

namespace Sys2Proof.Machine

/-! ## Slots that are not absent and not stale (R43, R281) -/

theorem Slot.live_eq_some {w : Nat} {x : Slot w} {v : BitVec w} :
    x.live = some v ↔ x.value = some v ∧ x.stale = false := by
  rw [Slot.live]
  cases x.stale <;> simp

theorem Slot.live_eq_none {w : Nat} {x : Slot w} : x.live = none ↔ x.value = none ∨ x.stale = true := by
  rw [Slot.live]
  cases x.stale <;> simp

theorem File24.get_mem_toList {α : Type} (f : File24 α) (r : Reg24) : f.get r ∈ f.toList := by
  cases r <;> simp [File24.get, File24.toList]

theorem State.live_of_results24Live {s : State} (h : s.results24Live = true) (r : Reg24) :
    (s.mirror24.get r).live ≠ none :=
  Option.isSome_iff_ne_none.mp (List.all_eq_true.mp h _ (s.mirror24.get_mem_toList r))

/-- A mirror that holds a block holds its values, none absent or stale (R169). -/
theorem State.results24_of_block {s : State} {x : File24 Word24} (h : s.mirror24 = x.map fun v => ⟨some v, false⟩) :
    s.results24Live = true ∧ s.results24 = x := by
  rw [State.results24Live, State.results24, h]
  exact ⟨rfl, rfl⟩

@[simp] theorem State.begin_results24 (s : State) : s.begin.results24 = s.results24 := rfl

/-! ## What COMPUTE_TOFS needs of `cfg` and the mirror (R281, R282) -/

/-- The mirror can be converted under the record `c` and `n` calibration periods. -/
structure State.Convertible (s : State) (c : Cfg) (n : Nat) : Prop where
  cfg        : s.cfg = some c
  calPeriods : s.calPeriods = some n
  results    : s.results24Live = true
  codes      : ∃ c1 c2, s.mirror8.config1.live = some c1 ∧ s.mirror8.config2.live = some c2 ∧
    mirrorAgrees s.params.layout c c1 c2 = true

theorem State.tofRefusal_none {s : State} : s.tofRefusal = none ↔ ∃ c n, s.Convertible c n := by
  constructor
  · intro met
    unfold State.tofRefusal at met
    split at met
    · rename_i c n cfg calPeriods
      split at met
      · rename_i c1 c2 config1 config2
        simp only [firstRefusal_cons_none, refuseIf_none, Bool.not_eq_false'] at met
        obtain ⟨results, agrees, -⟩ := met
        exact ⟨c, n, cfg, calPeriods, results, c1, c2, config1, config2, agrees⟩
      · cases met
    · cases met
  · rintro ⟨c, n, cfg, calPeriods, results, c1, c2, config1, config2, agrees⟩
    simp [State.tofRefusal, cfg, calPeriods, results, config1, config2, agrees, firstRefusal_none]

theorem mirrorAgrees_iff {L : Layout} {c : Cfg} {c1 c2 : Byte} : mirrorAgrees L c c1 c2 = true ↔
    measModeCode L c1 = (if c.measMode = 1 then 0#2 else 1#2) ∧ 2 ^ (avgCode L c2).toNat = c.avgCycles := by
  simp [mirrorAgrees, measModeOf, cyclesOfCode]

/-- The statements' form of what COMPUTE_TOFS needs. -/
theorem State.convertible_of_block {s : State} {c : Cfg} {n : Nat} {x : File24 Word24} {c1 c2 : Byte}
    (cfg : s.cfg = some c) (calPeriods : s.calPeriods = some n)
    (block : s.mirror24 = x.map fun v => ⟨some v, false⟩) (config1 : s.mirror8.config1 = ⟨some c1, false⟩)
    (config2 : s.mirror8.config2 = ⟨some c2, false⟩)
    (mode : measModeCode s.params.layout c1 = (if c.measMode = 1 then 0#2 else 1#2))
    (cycles : 2 ^ (avgCode s.params.layout c2).toNat = c.avgCycles) : s.Convertible c n :=
  ⟨cfg, calPeriods, (State.results24_of_block block).1, c1, c2, by rw [config1]; rfl, by rw [config2]; rfl,
    mirrorAgrees_iff.mpr ⟨mode, cycles⟩⟩

/-! ## The state COMPUTE_TOFS answers (R280, R284) -/

/-- What COMPUTE_TOFS run by the host leaves: the latches of the calibrated measurement and the pulse count yielded, or
the missing calibration latched and reported (R280, R284, R315). -/
def State.converted (s : State) (c : Cfg) (n : Nat) : State :=
  match calCountOf n s.results24.calibration1 s.results24.calibration2 with
  | some q => (s.begin.latchTofs q c).yields (.pulses (s.begin.latchTofs q c).pulseCount)
  | none => s.begin.latchNoCalibration.raiseAtHost

section
variable {s : State} {c : Cfg} {n : Nat}

theorem State.converted_of_calibrated {q : Rat}
    (count : calCountOf n s.results24.calibration1 s.results24.calibration2 = some q) :
    s.converted c n = (s.begin.latchTofs q c).yields (.pulses (s.begin.latchTofs q c).pulseCount) := by
  simp only [State.converted, count]

theorem State.converted_of_uncalibrated
    (count : calCountOf n s.results24.calibration1 s.results24.calibration2 = none) :
    s.converted c n = s.begin.latchNoCalibration.raiseAtHost := by
  simp only [State.converted, count]

theorem State.Convertible.hostComputeTofs (h : s.Convertible c n) :
    s.begin.hostComputeTofs.outcome = .next (s.converted c n) := by
  unfold State.hostComputeTofs
  simp only [State.begin_cfg, State.begin_calPeriods, h.cfg, h.calPeriods, State.computeTofs, State.begin_results24]
  cases count : calCountOf n s.results24.calibration1 s.results24.calibration2 with
  | some q =>
    rw [State.converted_of_calibrated count]
    rfl
  | none =>
    rw [State.converted_of_uncalibrated count]
    rfl

theorem exec_computeTofs_of_convertible (ready : s.Accepting) (configured : s.pstate = .configured)
    (h : s.Convertible c n) : exec .computeTofs s = .next (s.converted c n) := by
  have met : firstRefusal
      [s.commonRefusal, refuseIf (s.pstate != .configured) .wrongPowerState, s.tofRefusal] = none := by
    simp [firstRefusal_none, State.commonRefusal_none.mpr ready, configured, State.tofRefusal_none.mpr ⟨c, n, h⟩]
  show execComputeTofs s = _
  rw [execComputeTofs, met, State.attempt_none, h.hostComputeTofs]

/-- A COMPUTE_TOFS that answers a next state had what it needs, and the state is that of the pipeline (R280, R281). -/
theorem exec_computeTofs_next {t : State} (h : exec .computeTofs s = .next t) :
    s.Accepting ∧ s.pstate = .configured ∧ ∃ c n, s.Convertible c n ∧ t = s.converted c n := by
  obtain ⟨met, e⟩ := State.attempt_next (show execComputeTofs s = .next t from h)
  simp only [firstRefusal_cons_none, refuseIf_none, bne_eq_false_iff_eq] at met
  obtain ⟨common, configured, tof, -⟩ := met
  obtain ⟨c, n, convertible⟩ := State.tofRefusal_none.mp tof
  rw [convertible.hostComputeTofs] at e
  cases e
  exact ⟨State.commonRefusal_none.mp common, configured, c, n, convertible, rfl⟩

/-- COMPUTE_TOFS writes nothing that lets it run (R190, R281). -/
theorem State.converted_gate (ready : s.Accepting) (configured : s.pstate = .configured) :
    (s.converted c n).Accepting ∧ (s.converted c n).pstate = .configured := by
  unfold State.converted
  split
  · exact ⟨ready, configured⟩
  · exact ⟨ready, configured⟩

/-- COMPUTE_TOFS writes none of its inputs (R281). -/
theorem State.Convertible.converted (h : s.Convertible c n) : (s.converted c n).Convertible c n := by
  obtain ⟨cfg, calPeriods, results, codes⟩ := h
  unfold State.converted
  split
  · exact ⟨cfg, calPeriods, results, codes⟩
  · exact ⟨cfg, calPeriods, results, codes⟩

/-- Converting what was converted gives the same again: no latch is an input (R281). -/
theorem State.converted_converted (s : State) (c : Cfg) (n : Nat) :
    (s.converted c n).converted c n = s.converted c n := by
  cases count : calCountOf n s.results24.calibration1 s.results24.calibration2 with
  | some q =>
    rw [State.converted_of_calibrated count]
    exact State.converted_of_calibrated count
  | none =>
    rw [State.converted_of_uncalibrated count]
    exact State.converted_of_uncalibrated count

end

/-! ## Slots that cannot be used (R43, R212, R281, R282) -/

/-- COMPUTE_TOFS is refused where its inputs cannot be converted (R281, R282). -/
theorem exec_computeTofs_refused {s : State} (h : ∀ c n, ¬ s.Convertible c n) :
    ∃ r, exec .computeTofs s = .refused r := by
  have check : s.tofRefusal ≠ none := fun none =>
    have ⟨c, n, convertible⟩ := State.tofRefusal_none.mp none
    h c n convertible
  show ∃ r, execComputeTofs s = .refused r
  exact State.attempt_refused (firstRefusal_ne_none (.tail _ (.tail _ (.head _))) check)

theorem exec_measure_refused {s : State} (unusable : s.mirror8.config1.live = none) :
    ∃ r, exec .measure s = .refused r := by
  have check : refuseIf s.mirror8.config1.live.isNone .mirrorUnusable ≠ none := by simp [unusable]
  show ∃ r, execMeasure s = .refused r
  exact State.attempt_refused (firstRefusal_ne_none (.tail _ (.tail _ (.tail _ (.head _)))) check)

theorem exec_configureRetain_refused {s : State} (h : s.retainRefusal ≠ none) :
    ∃ r, exec .configureRetain s = .refused r := by
  show ∃ r, execConfigureRetain s = .refused r
  exact State.attempt_refused (firstRefusal_ne_none (.tail _ (.head _)) h)

theorem exec_hardRecover_refused {s : State} (h : s.retainRefusal ≠ none) :
    ∃ r, exec .hardRecover s = .refused r := by
  show ∃ r, execHardRecover s = .refused r
  exact State.attempt_refused (firstRefusal_ne_none (.tail _ (.tail _ (.head _))) h)

/-- Inputs that can be converted have every slot present and not stale, and the codes of `cfg` (R281, R282). -/
theorem State.Convertible.usable {s : State} {c : Cfg} {n : Nat} (h : s.Convertible c n) :
    ¬ ((∃ r, (s.mirror24.get r).value = none ∨ (s.mirror24.get r).stale = true) ∨
      (s.mirror8.config1.value = none ∨ s.mirror8.config1.stale = true) ∨
      (s.mirror8.config2.value = none ∨ s.mirror8.config2.stale = true) ∨
      (∃ c1, s.mirror8.config1.value = some c1 ∧
        (measModeCode s.params.layout c1).toNat ≠ (if c.measMode = 1 then 0 else 1)) ∨
      (∃ c2, s.mirror8.config2.value = some c2 ∧ 2 ^ (avgCode s.params.layout c2).toNat ≠ c.avgCycles)) := by
  obtain ⟨c1, c2, config1, config2, agrees⟩ := h.codes
  obtain ⟨mode, cycles⟩ := mirrorAgrees_iff.mp agrees
  rintro (⟨r, unusable⟩ | unusable | unusable | ⟨b, value, other⟩ | ⟨b, value, other⟩)
  · exact State.live_of_results24Live h.results r (Slot.live_eq_none.mpr unusable)
  · exact Option.some_ne_none c1 (config1.symm.trans (Slot.live_eq_none.mpr unusable))
  · exact Option.some_ne_none c2 (config2.symm.trans (Slot.live_eq_none.mpr unusable))
  · obtain rfl : c1 = b := Option.some.inj ((Slot.live_eq_some.mp config1).1.symm.trans value)
    apply other
    rw [mode]
    split <;> rfl
  · obtain rfl : c2 = b := Option.some.inj ((Slot.live_eq_some.mp config2).1.symm.trans value)
    exact other cycles

theorem State.retainRefusal_of_missing {s : State} (h : s.cfg = none ∨
    ∃ x ∈ [Reg8.config1, .config2, .intMask, .clockOvfH, .clockOvfL, .stopMaskH, .stopMaskL],
      (s.mirror8.get x).value = none) : s.retainRefusal ≠ none := by
  intro none
  obtain ⟨cfg, present⟩ := State.retainRefusal_none.mp none
  obtain unset | ⟨x, slot, absent⟩ := h
  · simp [unset] at cfg
  · have value := s.retained_iff.mp present x slot
    simp [absent] at value

/-- Settles O56: the refusals are each a precondition that fails; the rest is that no latch is an input. -/
theorem computeTofsNeedsLiveMirror : Obligations.ComputeTofsNeedsLiveMirror := by
  refine ⟨fun s t answers => ?_, fun s unset => ?_, fun s c set unusable => ?_, fun s unusable => ?_, fun s missing => ?_⟩
  · obtain ⟨ready, configured, c, n, convertible, rfl⟩ := exec_computeTofs_next answers
    obtain ⟨readyAgain, configuredAgain⟩ := State.converted_gate (c := c) (n := n) ready configured
    rw [exec_computeTofs_of_convertible readyAgain configuredAgain convertible.converted, State.converted_converted]
  · exact exec_computeTofs_refused fun c n h => Option.some_ne_none c (h.cfg.symm.trans unset)
  · refine exec_computeTofs_refused fun c' n h => ?_
    obtain rfl : c' = c := Option.some.inj (h.cfg.symm.trans set)
    exact h.usable unusable
  · exact exec_measure_refused (Slot.live_eq_none.mpr unusable)
  · have refuses := State.retainRefusal_of_missing missing
    exact ⟨exec_configureRetain_refused refuses, exec_hardRecover_refused refuses⟩

/-! ## Off the zero guard (R283 to R293, R304) -/

/-- A mode-2 slot with the difference taken in the rationals (R288). -/
theorem tofMode2_eq (f : NumberSystem) (norm clockPeriod : Rat) (avg : Nat) (time1 timeNext count : Word24) :
    tofMode2 f norm clockPeriod avg time1 timeNext count = if timeNext = 0#24 then none
      else some (f.round (f.round (norm * ((time1.toNat : Rat) - timeNext.toNat)) +
        f.round (f.round ((count.toNat : Rat) / avg) * clockPeriod))) := by
  rw [tofMode2]
  push_cast
  rfl

/-- A delta is the rounded difference where both slots are present (R293). -/
theorem deltaOf_eq (f : NumberSystem) (a b : Option Rat) :
    deltaOf f a b = a.bind fun u => b.map fun v => f.round (v - u) := by
  cases a <;> cases b <;> rfl

/-- Settles O54: off the zero guard the latches are the pipeline's results, over the rationals and over FLOAT. -/
theorem computeTofsIsExact : Obligations.ComputeTofsIsExact := by
  intro s c n x c1 c2 ready configured cfg calPeriods block config1 config2 mode cycles periods differ
  have convertible := State.convertible_of_block cfg calPeriods block config1 config2 mode cycles
  obtain ⟨-, rfl⟩ := State.results24_of_block block
  have calibrated := calCountOf_of_calibrated periods differ
  have runs := exec_computeTofs_of_convertible ready configured convertible
  rw [State.converted_of_calibrated calibrated] at runs
  intro rnd count results exact k
  have pipeline (f : NumberSystem) :
      resultsOf f s.params.clockPeriod count c s.results24 = results f.round := by
    simp only [resultsOf, tofsOf, deltasOf, deltaOf_eq, tofMode2_eq]
    rfl
  have latched : s.begin.latchTofs count c = { s.begin with
      calCount := exact.calCount, normLsb := exact.normLsb, tof := exact.tof, delta := exact.delta
      pulseCount := k, delivered := results rnd } := by
    rw [State.latchTofs]
    simp only [State.begin_params, State.begin_results24, pipeline]
    rfl
  exact runs.trans (congrArg (fun u : State => Host.Outcome.next (u.yields (.pulses u.pulseCount))) latched)

/-! ## Under the zero guard (R284, R292) -/

theorem calCountOf_of_uncalibrated {n : Nat} {c1 c2 : Word24} (guard : n = 1 ∨ c2 = c1) : calCountOf n c1 c2 = none :=
  if_pos guard

/-- Step 6 of MEASURE over a clean bus from a target that is not busy: the block of its registers, with the frame that
reads it (R169, R250). -/
theorem Underway.readRegs24_clean {s d : State} (h : Underway s d) (clean : d.turn.noise = .clean)
    (idle : d.around.target.busy = false) : ∃ w, d.BulkReadLeaves w ∧
      d.readRegs24 = s.withRead d.around.target.r24 w d.mstate d.result
        (d.log ++ [.frame (0x90#8 :: zeros 39) (0x00#8 :: d.around.target.r24.toList.flatMap bytes24)]) := by
  obtain ⟨rx, w, -, bulk, shown, read⟩ := d.busRdAll24_any
  have block := (shown clean).2 idle
  refine ⟨w, bulk.leaves, ?_⟩
  rw [State.readRegs24, read, file24OfBytes_of_block block, block, h]
  rfl

/-- Settles O55: COMPUTE_TOFS reports the error to the host, MEASURE takes it as its outcome. -/
theorem zeroGuardReportsNoCalibration : Obligations.ZeroGuardReportsNoCalibration := by
  constructor
  · intro s c n x c1 c2 ready configured cfg calPeriods block config1 config2 mode cycles guard
    have convertible := State.convertible_of_block cfg calPeriods block config1 config2 mode cycles
    obtain ⟨-, rfl⟩ := State.results24_of_block block
    have count := calCountOf_of_uncalibrated guard
    rw [exec_computeTofs_of_convertible ready configured convertible, State.converted_of_uncalibrated count]
    rfl
  · intro s c c1 n ready idle trigger interrupt d x clean notBusy guard
    obtain ⟨w, leaves, read⟩ := (Underway.completed s c c1).readRegs24_clean clean notBusy
    obtain ⟨-, -, -, atRest⟩ := ready.accepting
    refine ⟨w, ?_, leaves⟩
    rw [execMeasure_of_interruptSeen ready idle trigger interrupt,
      ready.readAndConvert_uncalibrated read (calCountOf_of_uncalibrated guard), State.raiseMeasurement_eq, ← atRest,
      List.append_cons d.log _ [_, _, _]]
    rfl

end Sys2Proof.Machine
end

section
/-! PROOFS of the statement about the parameters and the clock (spec/60_exceptions.md R335;
spec/70_reset_and_hazards.md R365): read off what an instruction did, but for MEASURE, which is followed step by step,
since `Onward` says nothing of the clock. -/

namespace Sys2Proof.Machine

/-! ## What takes the clock on and writes no parameter (R335, R365) -/

/-- From `s` to `t` no parameter was written and the clock did not run back (R335, R365). -/
structure Forward (s t : State) : Prop where
  params : t.params = s.params
  time   : s.world.time ≤ t.world.time

theorem Forward.refl (s : State) : Forward s s := ⟨rfl, le_refl _⟩

theorem Forward.trans {a b c : State} (h : Forward a b) (k : Forward b c) : Forward a c :=
  ⟨k.params.trans h.params, h.time.trans k.time⟩

theorem Forward.of_follows {s : State} {w : World} (f : s.world.Follows s.params w) : Forward s { s with world := w } :=
  ⟨rfl, f.time⟩

theorem BusOnly.forward {s t : State} (h : BusOnly s t) : Forward s t := ⟨h.params, h.time⟩

theorem Forward.moveTo (s : State) (m : MState) : Forward s (s.moveTo m) := ⟨rfl, le_refl _⟩

theorem Forward.delay (s : State) (d : Rat) : Forward s (s.delay d) := .of_follows (World.delay_follows ..)

theorem Forward.waitLine (s : State) (role : PinRole) (level : Bool) (d : Rat) :
    Forward s (s.waitLine role level d).2 := .of_follows (World.waitLine_follows ..)

theorem Forward.driveLine (s : State) (role : PinRole) (l : Bool) : Forward s (s.driveLine role l) :=
  ⟨s.driveLine_params role l, (s.driveLine_onward role l).1⟩

theorem Forward.powerDown (s : State) : Forward s s.powerDown := ⟨s.powerDown_params, s.powerDown_forward⟩

theorem Forward.powerUp (s : State) : Forward s s.powerUp := by
  obtain ⟨-, -, time, -⟩ := s.powerUp_onward
  exact ⟨by rw [State.powerUp_eq], time⟩

theorem Forward.cleanedUp (s : State) : Forward s s.cleanedUp :=
  ⟨by rw [State.cleanedUp_eq], s.powerDown_forward.trans s.cleanedUp_goes.time⟩

theorem Forward.driveOutputsLow (s : State) : Forward s s.driveOutputsLow :=
  (((Forward.driveLine s .enable false).trans (.driveLine _ .oscEnable _)).trans (.driveLine _ .start _)).trans
    (.driveLine _ .stop _)

theorem Forward.raiseFatal (s : State) (e : FatalError) : Forward s (s.raiseFatal e) := by
  unfold State.raiseFatal
  dsimp only
  split
  · exact ⟨State.powerDown_params _, State.powerDown_forward _⟩
  · exact ⟨rfl, le_refl _⟩

theorem Forward.computeTofs (s : State) (c : Cfg) (periods : Nat) : Forward s (s.computeTofs c periods).2 := by
  unfold State.computeTofs
  split <;> exact ⟨rfl, le_refl _⟩

theorem Forward.raiseMeasurement (s : State) (terminal : MState) (o : MeasOutcome) :
    Forward s (s.raiseMeasurement terminal o) := ⟨rfl, le_refl _⟩

theorem Forward.pulse (s : State) (role : PinRole) (active : Bool) : Forward s (s.pulse role active) :=
  (Forward.driveLine s role active).trans (.driveLine ..)

theorem Forward.stopPulses (active : Bool) (k : Nat) (s : State) : Forward s (State.stopPulses active k s) := by
  induction k generalizing s with
  | zero => exact .refl s
  | succ k ih => exact ((BusOnly.nextTurn s).forward.trans (.pulse ..)).trans (ih _)

theorem Forward.simPulses (s : State) (c : Cfg) : Forward s (s.simPulses c) := by
  have start : Forward s (s.startPulsed c) :=
    ((BusOnly.warnUnassigned s .start).forward.trans (.pulse ..)).trans (BusOnly.warnUnassigned _ .stop).forward
  rw [State.simPulses_eq_stopPulses]
  exact (start.trans (BusOnly.nextTurn _).forward).trans (.stopPulses ..)

/-! ## Verified writes and a recovery (R198 to R202, R257) -/

theorem WritesEnd.forward {op : WriteOp} {ws : List VerifiedWrite} {u t : State} (h : WritesEnd op ws u t) :
    Forward u t := by
  cases h with
  | verified x bus _ last =>
    rw [last, State.afterWrites_eq]
    exact ⟨bus.params, bus.time⟩
  | failed gaveUp =>
    obtain ⟨x, a, v, bus, -, rfl⟩ := gaveUp
    exact (bus.trans (.note ..)).forward.trans (.raiseFatal ..)
  | goesOn more =>
    obtain ⟨x, rest, bus, -, -, rfl, -⟩ := more
    exact ⟨bus.params, bus.time⟩

theorem Rewrites.forward {op : WriteOp} {u t : State} (h : Rewrites op u t) : Forward u t := by
  obtain ⟨ws, -, ends⟩ := h
  exact ends.forward

theorem Recovers.forward {op : WriteOp} {s t : State} (h : Recovers op s t) : Forward s t := by
  obtain ⟨u, bus, -, ends⟩ := h
  exact ((bus.forward.trans (.powerDown u)).trans (.powerUp _)).trans ends.forward

/-! ## MEASURE, step by step (R230) -/

/-- A run from `s` goes forward, whether it goes on or ended. -/
def Run.GoesForward (s : State) (r : Run) : Prop := r.Gives (Forward s) (Forward s)

/-- A run begun later goes forward from before. -/
theorem Run.GoesForward.after {s u : State} {r : Run} (h : r.GoesForward u) (before : Forward s u) : r.GoesForward s :=
  h.mono (fun _ => before.trans) fun _ => before.trans

theorem Run.GoesForward.andThen {s : State} {r : Run} {next : State → Run} (h : r.GoesForward s)
    (k : ∀ u, (next u).GoesForward u) : (r.andThen next).GoesForward s :=
  Run.Gives.andThen h fun u hu => (k u).after hu

theorem Run.GoesForward.outcome {s t : State} {r : Run} (h : r.GoesForward s) (k : r.outcome = .next t) : Forward s t :=
  or_self_iff.mp (Run.Gives.outcome h k)

theorem State.recover_forward (s : State) (op : WriteOp) : (s.recover op).GoesForward s :=
  have rewrites : (s.powerDown.powerUp.rewrite op).GoesForward s.powerDown.powerUp :=
    (State.rewrite_rewrites op _).mono (fun _ h => h.forward) fun _ h => h.forward
  rewrites.after ((Forward.powerDown s).trans (.powerUp _))

theorem State.checkPolarity_forward (c : Cfg) (s : State) : (s.checkPolarity c).GoesForward s := by
  have turn := (BusOnly.nextTurn s).forward
  unfold State.checkPolarity
  split
  · dsimp only
    split
    · exact turn
    · split
      · trivial
      · exact ((State.recover_forward _ .measure).after turn).andThen Forward.refl
  · exact (BusOnly.warnUnassigned s .trig1).forward

theorem State.arm_forward (config1 : Byte) (s : State) : (s.arm config1).GoesForward s :=
  (BusOnly.wr8 s .config1 _).forward.trans (.moveTo ..)

theorem State.awaitTrigger_forward (c : Cfg) (s : State) : (s.awaitTrigger c).GoesForward s := by
  have wait := Forward.waitLine s .trig1 (trigActive c) s.params.tTrigDeadline
  unfold State.awaitTrigger
  split
  · split
    · rename_i u e
      rw [e] at wait
      exact wait.trans (.moveTo ..)
    · rename_i u e
      rw [e] at wait
      exact wait.trans (.raiseMeasurement ..)
  · exact .moveTo ..

theorem State.supplyPulses_forward (c : Cfg) (s : State) : (s.supplyPulses c).GoesForward s := by
  refine Forward.trans (?_ : Forward s (if s.params.simulate then s.simPulses c else s)) (.moveTo ..)
  split
  · exact .simPulses s c
  · exact .refl s

theorem State.awaitInterrupt_forward (c : Cfg) (s : State) : (s.awaitInterrupt c).GoesForward s := by
  have wait := Forward.waitLine s .int1 s.params.intActive (interruptDeadline s.params c)
  unfold State.awaitInterrupt
  split
  · split
    · rename_i u e
      rw [e] at wait
      exact wait
    · rename_i u e
      rw [e] at wait
      exact wait.trans (.raiseMeasurement ..)
  · exact (BusOnly.warnUnassigned s .int1).forward.trans (.delay ..)

theorem State.readAndConvert_forward (c : Cfg) (s : State) : (s.readAndConvert c).GoesForward s := by
  have read := (BusOnly.readRegs24 s).forward
  unfold State.readAndConvert
  dsimp only
  split
  · trivial
  · have computed := read.trans (.computeTofs _ c (s.readRegs24.calPeriods.getD 0))
    split
    · rename_i n v e
      rw [e] at computed
      exact computed.trans ⟨rfl, le_refl _⟩
    · rename_i v e
      rw [e] at computed
      exact computed.trans (.raiseMeasurement ..)

theorem State.measure_forward (c : Cfg) (config1 : Byte) (s : State) : (s.measure c config1).GoesForward s :=
  (((((s.checkPolarity_forward c).andThen (State.arm_forward config1)).andThen (State.awaitTrigger_forward c)).andThen
    (State.supplyPulses_forward c)).andThen (State.awaitInterrupt_forward c)).andThen (State.readAndConvert_forward c)

theorem execMeasure_forward {s t : State} (h : execMeasure s = .next t) : Forward s t := by
  obtain ⟨-, e⟩ := State.attempt_next h
  split at e
  · exact ((State.measure_forward _ _ _).after (BusOnly.begin s).forward).outcome e
  · cases e
  · cases e

/-! ## Every step -/

/-- Every other instruction, from what it did. -/
theorem Effect.forward {s t : State} {i : Instr} (h : Effect s i t) (other : i ≠ .measure) : Forward s t := by
  have began := (BusOnly.begin s).forward
  have turn := began.trans (BusOnly.nextTurn s.begin).forward
  cases h with
  | accessed _ _ bus => exact bus.forward
  | opened =>
    have low := Forward.driveOutputsLow { s.begin.nextTurn.2 with busOpen := true }
    exact ⟨low.params, turn.time.trans low.time⟩
  | openFailed => exact turn.trans (.raiseFatal ..)
  | clocked => exact ⟨rfl, le_refl _⟩
  | poweredDown => exact began.trans (.powerDown _)
  | poweredUp => exact began.trans (.powerUp _)
  | cleanedUp => exact began.trans (.cleanedUp _)
  | configured _ _ ends => exact ⟨ends.forward.params, ends.forward.time⟩
  | rewritten _ _ ends => exact began.trans ends.forward
  | recovered _ _ _ ends => exact ends.forward
  | answered => exact absurd rfl other
  | computed _ c periods returned => exact (began.trans (.computeTofs _ c periods)).trans returned.forward

theorem exec_forward {i : Instr} {s t : State} (h : exec i s = .next t) : Forward s t := by
  by_cases m : i = .measure
  · subst m
    exact execMeasure_forward h
  · exact (exec_effect h).forward m

theorem step_forward {s t : State} (h : step s = .next t) : Forward s t := by
  cases step_effect h with
  | resumed p _ ends => exact ⟨ends.forward.params, ends.forward.time⟩
  | turned _ next =>
    rw [next]
    exact .of_follows s.around_follows
  | ran _ i rest did => exact ⟨(exec_forward did).params, (exec_forward did).time⟩

/-- Settles O10: every step goes forward. -/
theorem clockForwardParametersFixed : Obligations.ClockForwardParametersFixed := fun _ _ next =>
  ⟨(step_forward next).params, (step_forward next).time⟩

end Sys2Proof.Machine
end

section
/-! PROOFS of the statement about what the host receives (spec/60_exceptions.md R318, R329; spec/10_state.md R51;
spec/43_calibration.md R290, R294, R304): the outcome codes and their counters, the decay interval, and how far an
operation of binary64 is from its exact result. -/

namespace Sys2Proof.Machine

/-! ## The histogram (R318, R329) -/

theorem MeasOutcome.Legal.code_lt {o : MeasOutcome} (h : o.Legal) : o.code < 11 := by
  cases o with
  | success n =>
    have := h n rfl
    rw [MeasOutcome.code]
    omega
  | noCalibration | interruptTimeout | triggerFallTimeout | triggerRiseTimeout | triggerPolarity => decide

/-- The outcome a code of the host's histogram stands for (R318). -/
def outcomeOfCode : Nat → MeasOutcome
  | 6 => .noCalibration
  | 7 => .interruptTimeout
  | 8 => .triggerFallTimeout
  | 9 => .triggerRiseTimeout
  | 10 => .triggerPolarity
  | pulses => .success pulses

/-- The errors' codes lie above every legal pulse count (R318). -/
theorem MeasOutcome.Legal.outcomeOfCode_code {o : MeasOutcome} (h : o.Legal) : outcomeOfCode o.code = o := by
  cases o with
  | success n =>
    have := h n rfl
    interval_cases n <;> rfl
  | noCalibration | interruptTimeout | triggerFallTimeout | triggerRiseTimeout | triggerPolarity => rfl

theorem MeasOutcome.Legal.code_inj {a b : MeasOutcome} (ha : a.Legal) (hb : b.Legal) (h : a.code = b.code) : a = b := by
  rw [← ha.outcomeOfCode_code, h, hb.outcomeOfCode_code]

/-- One more outcome counts one more where its code is. -/
theorem histogram_cons (o : MeasOutcome) (os : List MeasOutcome) : histogram (o :: os) =
    (List.range 11).map fun k => (os.countP fun o => o.code == k) + if o.code == k then 1 else 0 := by
  simp only [histogram, List.countP_cons]

/-- A code below eleven has one counter. -/
theorem one_counter : ∀ c < 11, ((List.range 11).map fun k => if c == k then 1 else 0).sum = 1 := by decide

theorem histogram_sum {os : List MeasOutcome} (h : ∀ o ∈ os, o.Legal) : (histogram os).sum = os.length := by
  induction os with
  | nil => rfl
  | cons o os ih =>
    obtain ⟨legal, others⟩ := List.forall_mem_cons.mp h
    rw [histogram_cons, List.sum_map_add, one_counter _ legal.code_lt, ← histogram, ih others, List.length_cons]

theorem histogram_length (os : List MeasOutcome) : (histogram os).length = 11 := by simp [histogram]

/-! ## The decay interval (R294) -/

theorem State.decayInterval_eq_some {s : State} {v : Rat} : s.decayInterval = some v ↔
    ∃ n, s.outcome = some (.success n) ∧ 2 ≤ n ∧ s.delivered.delta.d1 = some v := by
  unfold State.decayInterval
  split
  · rename_i n counted
    simp [counted]
  · rename_i other
    exact ⟨nofun, fun ⟨n, counted, _⟩ => absurd counted (other n)⟩

/-- A delta is present exactly when both its slots are (R293). -/
theorem deltaOf_eq_some {f : NumberSystem} {x y : Option Rat} {v : Rat} : deltaOf f x y = some v ↔
    ∃ a b, x = some a ∧ y = some b ∧ v = f.round (b - a) := by
  cases x <;> cases y <;> simp [deltaOf, eq_comm]

/-! ## The numbers of FLOAT (R304) -/

theorem roundBinary64_of_ne_zero {q : Rat} (h : q ≠ 0) (r : Rounding) :
    roundBinary64 r q = (roundInt r (q * 2 ^ scaleOf q) : Rat) * 2 ^ (-scaleOf q) := by
  rw [roundBinary64, if_neg h, pow2_eq, pow2_eq]

/-- The significand has at most 53 bits. -/
theorem significand_le {q : Rat} (h : q ≠ 0) (r : Rounding) : (roundInt r (q * 2 ^ scaleOf q)).natAbs ≤ 2 ^ 53 := by
  have scaled : |q * 2 ^ scaleOf q| ≤ ((2 ^ 53 : Int) : Rat) := by
    rw [abs_mul, abs_of_pos (zpow_pos two_pos _ : (0 : Rat) < 2 ^ scaleOf q)]
    exact_mod_cast (scaleOf_spec h).2.le
  have bound : |roundInt r (q * 2 ^ scaleOf q)| ≤ 2 ^ 53 := roundInt_le r _ _ scaled
  rw [Int.abs_eq_natAbs] at bound
  exact_mod_cast bound

/-- The significand is off by at most 1, and the number scaled to it is at least `2 ^ 52`. -/
theorem roundBinary64_error (r : Rounding) (q : Rat) : |roundBinary64 r q - q| * 2 ^ 52 ≤ |q| := by
  by_cases h : q = 0
  · simp [h, roundBinary64]
  · rw [roundBinary64_of_ne_zero h]
    generalize e : scaleOf q = k
    have near := roundInt_near r (q * 2 ^ k)
    have large := (scaleOf_spec h).1
    rw [e] at large
    have unscale : (2 : Rat) ^ k * 2 ^ (-k) = 1 := by rw [← zpow_add₀ two_ne_zero, add_neg_cancel, zpow_zero]
    have pos : (0 : Rat) < 2 ^ (-k) := zpow_pos two_pos _
    have split : (roundInt r (q * 2 ^ k) : Rat) * 2 ^ (-k) - q =
        ((roundInt r (q * 2 ^ k) : Rat) - q * 2 ^ k) * 2 ^ (-k) := by
      rw [sub_mul, mul_assoc, unscale, mul_one]
    calc |(roundInt r (q * 2 ^ k) : Rat) * 2 ^ (-k) - q| * 2 ^ 52
        = |(roundInt r (q * 2 ^ k) : Rat) - q * 2 ^ k| * 2 ^ (-k) * 2 ^ 52 := by rw [split, abs_mul, abs_of_pos pos]
      _ ≤ 1 * 2 ^ (-k) * (|q| * 2 ^ k) := by gcongr
      _ = |q| := by rw [one_mul, mul_left_comm, mul_comm (2 ^ (-k)) (2 ^ k), unscale, mul_one]

/-- What an operation gives is a significand times a power of two. -/
theorem roundBinary64_form (r : Rounding) (q : Rat) :
    ∃ m e : Int, roundBinary64 r q = m * (2 : Rat) ^ e ∧ m.natAbs ≤ 2 ^ 53 := by
  by_cases h : q = 0
  · exact ⟨0, 0, by simp [h, roundBinary64], by decide⟩
  · exact ⟨_, _, roundBinary64_of_ne_zero h r, significand_le h r⟩

/-- Settles O57: the codes, the counters, what `deliverySound` says of the first delta, and the two number systems. -/
theorem histogramSumsToBatch : Obligations.HistogramSumsToBatch := by
  refine ⟨fun a b ha hb => MeasOutcome.Legal.code_inj ha hb, fun os h => ⟨histogram_length os, histogram_sum h⟩,
    fun s v sound => ?_, fun t k x slot => ?_, fun _ => rfl, fun r q => ?_⟩
  · obtain ⟨-, deltas, exact⟩ := State.deliverySound_iff.mp sound
    refine ⟨?_, fun float => ?_⟩
    · rw [State.decayInterval_eq_some, deltas]
      simp only [deltasOf, deltaOf_eq_some, exists_and_left]
    · rw [State.decayInterval_eq_some, exact float]
  · rw [Tofs.numbers, List.getElem?_map, slot]
    cases x <;> rfl
  · obtain ⟨m, e, form, bound⟩ := roundBinary64_form r q
    exact ⟨m, e, form, bound, roundBinary64_error r q⟩

end Sys2Proof.Machine
end

section
/-! PROOFS of the statement about the level of INT (spec/60_exceptions.md R320; spec/70_reset_and_hazards.md R361;
spec/42_measurement.md R265): bit by bit, and case by case of a target that is wedged, silent, or neither. -/

namespace Sys2Proof.Machine

theorem and_ne_zero_iff {x y : Byte} : x &&& y ≠ 0#8 ↔
    ∃ k : Fin 8, x.getLsbD k.val = true ∧ y.getLsbD k.val = true := by
  constructor
  · intro h
    by_contra none
    refine h (BitVec.eq_of_getLsbD_eq fun i hi => ?_)
    have off := not_exists.mp none ⟨i, hi⟩
    simpa [BitVec.getLsbD_and] using off
  · rintro ⟨k, hx, hy⟩ zero
    have bit : (x &&& y).getLsbD k.val = false := by rw [zero, BitVec.getLsbD_zero]
    rw [BitVec.getLsbD_and, hx, hy] at bit
    cases bit

/-- A status bit is enabled where its like-named mask bit is 1 (R320). -/
theorem enabledSources_bit (L : Layout) (mask : Byte) (i : Fin 8) : (enabledSources L mask).getLsbD i.val =
    (mask.getLsbD L.newMeasMask.val && decide (i = L.newMeas) ||
      mask.getLsbD L.coarseOvfMask.val && decide (i = L.coarseOvf) ||
      mask.getLsbD L.clockOvfMask.val && decide (i = L.clockOvf)) := by
  have source (b : Bool) (k : Fin 8) :
      (if b then bitMask k else 0#8).getLsbD i.val = (b && decide (i = k)) :=
    (bitAt_bit k i b).trans (by simp only [Fin.ext_iff])
  simp only [enabledSources, statusNewMeas, statusCoarseOvf, statusClockOvf, BitVec.getLsbD_or, source]

theorem Target.intPending_iff (L : Layout) (t : Target) : t.intPending L = true ↔
    (t.r8.intStatus.getLsbD L.newMeas.val = true ∧ t.r8.intMask.getLsbD L.newMeasMask.val = true) ∨
    (t.r8.intStatus.getLsbD L.coarseOvf.val = true ∧ t.r8.intMask.getLsbD L.coarseOvfMask.val = true) ∨
    (t.r8.intStatus.getLsbD L.clockOvf.val = true ∧ t.r8.intMask.getLsbD L.clockOvfMask.val = true) := by
  rw [Target.intPending, bne_iff_ne, and_ne_zero_iff]
  simp only [enabledSources_bit, Bool.or_eq_true, Bool.and_eq_true, decide_eq_true_eq]
  constructor
  · rintro ⟨k, set, (⟨enabled, rfl⟩ | ⟨enabled, rfl⟩) | ⟨enabled, rfl⟩⟩
    · exact .inl ⟨set, enabled⟩
    · exact .inr (.inl ⟨set, enabled⟩)
    · exact .inr (.inr ⟨set, enabled⟩)
  · rintro (⟨set, enabled⟩ | ⟨set, enabled⟩ | ⟨set, enabled⟩)
    · exact ⟨_, set, .inl (.inl ⟨enabled, rfl⟩)⟩
    · exact ⟨_, set, .inl (.inr ⟨enabled, rfl⟩)⟩
    · exact ⟨_, set, .inr ⟨enabled, rfl⟩⟩

theorem Target.intLevel_of_wedged {t : Target} (h : t.wedged = true) (p : Params) : t.intLevel p = t.stuckInt := by
  simp only [Target.intLevel, h, if_true]

theorem Target.intLevel_of_silent {t : Target} (running : t.wedged = false) (silent : t.intSilent = true) (p : Params) :
    t.intLevel p = !p.intActive := by
  simp [Target.intLevel, running, silent]

theorem Target.intLevel_active {t : Target} (running : t.wedged = false) (heard : t.intSilent = false) (p : Params) :
    t.intLevel p = p.intActive ↔ t.intPending p.layout = true := by
  cases pending : t.intPending p.layout <;> simp [Target.intLevel, running, heard, pending]

/-- The default LAYOUT has each source and its mask bit at the same place, 0 to 2. -/
theorem enabledSources_defaultLayout (mask : Byte) : enabledSources defaultLayout mask = mask &&& 0x07#8 := by
  have bits (i : Fin 8) :
      (enabledSources defaultLayout mask).getLsbD i.val = (mask.getLsbD i.val && (0x07#8).getLsbD i.val) := by
    rw [enabledSources_bit]
    fin_cases i <;> simp [defaultLayout]
  exact BitVec.eq_of_getLsbD_eq fun i hi => (bits ⟨i, hi⟩).trans BitVec.getLsbD_and.symm

/-- Settles O58: case by case of the level's definition. -/
theorem interruptLevelFollowsStatus : Obligations.InterruptLevelFollowsStatus := by
  intro p w
  refine ⟨fun running heard => ?_, fun running silent => Target.intLevel_of_silent running silent p,
    fun wedged => Target.intLevel_of_wedged wedged p, enabledSources_defaultLayout _, rfl⟩
  exact (Target.intLevel_active running heard p).trans (w.target.intPending_iff p.layout)

end Sys2Proof.Machine
end

section
/-! PROOFS of the statements about the two resets and about the waits (spec/70_reset_and_hazards.md R361, R362, R391;
spec/42_measurement.md R235): a target held in reset stays there, and the environment's turns under a ceiling do not take
the clock past it. -/

namespace Sys2Proof.Machine

/-! ## The reset of the controller (R362) -/

/-- Settles O6: each holder is a field of the state; the slots are those of filled files. -/
theorem controllerResetValues : Obligations.ControllerResetValues := by
  intro p
  have slot8 (r : Reg8) : (State.resetWith p).mirror8.get r = ⟨none, false⟩ := by cases r <;> rfl
  have slot24 (r : Reg24) : (State.resetWith p).mirror24.get r = ⟨none, false⟩ := by cases r <;> rfl
  have slot16 (q : Pair) : (State.resetWith p).mirror16.get q = ⟨none, false⟩ := by cases q <;> rfl
  exact ⟨rfl, rfl, slot8, slot24, slot16, rfl, rfl, rfl, rfl, rfl, rfl, rfl, rfl, rfl, rfl, rfl, rfl, rfl, rfl⟩

/-- The invariant holds after the reset of a controller with any parameters. -/
theorem State.resetWith_inv (p : Params) : (State.resetWith p).Inv where
  mirrorCoherent  := rfl
  cfgLegal        := rfl
  heldInReset     := State.heldInReset_iff.mpr fun _ => rfl
  atRest          := rfl
  powerSound      := rfl
  configuredSound := rfl
  calPeriodsSound := State.calPeriodsSound_of_eq rfl
  pendingSound    := State.pendingSound_of_none rfl
  latchesSound    := rfl
  outcomeLegal    := rfl
  deliverySound   := State.deliverySound_iff.mpr ⟨rfl, rfl, fun _ => rfl⟩

/-- Settles O8: the parameters of `State.reset` are one choice of them. -/
theorem resetSatisfiesInvariant : Obligations.ResetSatisfiesInvariant := State.resetWith_inv defaultParams

/-! ## The reset of the target (R361) -/

theorem Target.inReset_trigLevel (p : Params) :
    (Target.inReset p).trigLevel p.layout = trigEdgeBit p.layout p.reset8.config1 :=
  Bool.false_bne _

theorem Target.inReset_intLevel (p : Params) : (Target.inReset p).intLevel p = !p.intActive :=
  Target.intLevel_of_silent rfl rfl p

/-- Settles O7: ENABLE driven low puts the target in reset, and a target held there does not follow a turn. -/
theorem enableLowHoldsTargetReset : Obligations.EnableLowHoldsTargetReset := by
  intro s turn ceil wired w
  have lines : w.lines = { s.world.lines with enable := false } := by
    rw [State.driveLine_lines, Pins.has, if_pos wired]
    rfl
  have held : w.held s.params = true := by simp [World.held, wired, lines]
  have target : w.target = Target.inReset s.params := s.driveEnableLow_held held
  have follows := w.play_follows s.params ceil turn
  exact ⟨lines, congrArg Target.r8 target, congrArg Target.r24 target, congrArg Target.busy target,
    congrArg Target.wedged target, congrArg Target.ap target,
    (congrArg (Target.trigLevel s.params.layout) target).trans (Target.inReset_trigLevel s.params),
    (congrArg (Target.intLevel s.params) target).trans (Target.inReset_intLevel s.params),
    (follows.inReset held target).trans target.symm, follows.lines⟩

/-! ## The clock under a ceiling (R335; log entry 25) -/

/-- Waiting until `stop` keeps the clock within a bound that neither it nor `stop` passes. -/
theorem clockAfter_remaining_le {now stop c : Rat} (h : now ≤ c) (k : stop ≤ c) :
    clockAfter none (stop - now) now ≤ c := by
  simp only [clockAfter, nonnegative]
  split <;> linarith

theorem World.happen_time (p : Params) (turn : Turn) (e : Event) (w : World) : (w.happen p turn e).time = w.time := by
  unfold World.happen
  split <;> rfl

theorem World.takeTurn_time (w : World) : w.takeTurn.2.time = w.time := by
  unfold World.takeTurn
  split <;> rfl

theorem World.happenAll_time_le (p : Params) {c : Rat} (turn : Turn) (es : List (Rat × Event)) {w : World}
    (h : w.time ≤ c) : (w.happenAll p (some c) turn es).time ≤ c := by
  induction es generalizing w with
  | nil => exact h
  | cons x rest ih => exact ih ((World.happen_time ..).trans_le (clockAfter_le_ceil x.1 h))

/-- No turn takes the clock past a ceiling that it has not passed yet. -/
theorem World.turnUnder_time_le (p : Params) {c : Rat} {w : World} (h : w.time ≤ c) :
    (w.turnUnder p (some c)).2.time ≤ c :=
  clockAfter_le_ceil _ (World.happenAll_time_le p _ _ (w.takeTurn_time.trans_le h))

/-! ## The rounds of a wait (R235, R391) -/

section
variable {p : Params} {role : PinRole} {level : Bool} {d t0 : Rat} {rounds : Nat} {w : World}

/-- The first sample is the one after the first turn of the environment. -/
theorem World.samples_head : (World.samples p d t0 rounds w).head? =
    some (w.turnUnder p (some (t0 + d + p.tPollSlack))).2 := by
  cases rounds with
  | zero => rfl
  | succ n =>
    simp only [World.samples]
    split <;> rfl

/-- A first sample that finds the line active ends the wait. -/
theorem World.poll_of_seen (seen : (w.turnUnder p (some (t0 + d + p.tPollSlack))).2.level p role = level) :
    World.poll p role level d t0 rounds w = (.seen, (w.turnUnder p (some (t0 + d + p.tPollSlack))).2) := by
  cases rounds <;> exact if_pos seen

/-- A wait ends within T_POLL_SLACK of its deadline, as each of its turns has that ceiling. -/
theorem World.poll_time_le (slack : 0 ≤ p.tPollSlack) (h : w.time ≤ t0 + d + p.tPollSlack) :
    (World.poll p role level d t0 rounds w).2.time ≤ t0 + d + p.tPollSlack := by
  have deadline : t0 + d ≤ t0 + d + p.tPollSlack := le_add_of_nonneg_right slack
  induction rounds generalizing w with
  | zero =>
    have sampled := World.turnUnder_time_le p h
    simp only [World.poll]
    split
    · exact sampled
    · exact clockAfter_remaining_le (World.turnUnder_time_le p sampled) deadline
  | succ n ih =>
    have sampled := World.turnUnder_time_le p h
    have read := World.turnUnder_time_le p sampled
    simp only [World.poll]
    split
    · exact sampled
    · split
      · exact read
      · exact ih read

/-- The samples of a wait that times out lie between its start and its end. -/
theorem World.samples_between (timeout : (World.poll p role level d t0 rounds w).1 = .timeout) :
    ∀ u ∈ World.samples p d t0 rounds w, w.time ≤ u.time ∧ u.time ≤ (World.poll p role level d t0 rounds w).2.time := by
  induction rounds generalizing w with
  | zero =>
    have after := (w.turnUnder_follows p (some (t0 + d + p.tPollSlack))).time
    simp only [World.poll, World.samples, List.forall_mem_singleton] at timeout ⊢
    split at timeout
    · cases timeout
    · rename_i inactive
      rw [if_neg inactive]
      exact ⟨after, ((World.turnUnder_follows p _ _).trans (World.elapse_follows ..)).time⟩
  | succ n ih =>
    have after := (w.turnUnder_follows p (some (t0 + d + p.tPollSlack))).time
    have read := World.turnUnder_follows p (some (t0 + d + p.tPollSlack))
      (w.turnUnder p (some (t0 + d + p.tPollSlack))).2
    simp only [World.poll, World.samples] at timeout ⊢
    split at timeout
    · cases timeout
    · rename_i inactive
      rw [if_neg inactive]
      split at timeout
      · rename_i passed
        rw [if_pos passed, if_pos passed, List.forall_mem_singleton]
        exact ⟨after, read.time⟩
      · rename_i early
        rw [if_neg early, if_neg early, List.forall_mem_cons]
        refine ⟨⟨after, (read.trans (World.poll_follows ..)).time⟩, fun u mem => ?_⟩
        obtain ⟨starts, ends⟩ := ih timeout u mem
        exact ⟨(after.trans read.time).trans starts, ends⟩

end

/-- Settles O51: the samples decide the result, and the ceiling of the turns bounds the clock. -/
theorem waitLineRespectsDeadline : Obligations.WaitLineRespectsDeadline := by
  intro p role level d w wait slack r w0 first samples
  obtain ⟨timeout_iff, seen_find⟩ := World.poll_samples p role level d w0.time (w0.script.length / 2) w0
  have bound : r.2.time ≤ w0.time + d + p.tPollSlack := World.poll_time_le slack (by linarith)
  refine ⟨World.samples_head, timeout_iff, fun timeout => ?_, fun seen => ?_, World.poll_of_seen,
    (w.nextTurn_follows p).time, (World.poll_follows ..).time, (w.waitLine_follows ..).lines⟩
  · exact ⟨World.poll_timeout_time timeout, bound, World.samples_between timeout⟩
  · have active := List.find?_some (seen_find seen)
    exact ⟨seen_find seen, beq_iff_eq.mp active, bound⟩

end Sys2Proof.Machine
end
